-- ==== Sys2Proof/Word.lean ====
section
/-! DEFINITION. The bit-vector types of the block (00_scope.md R5, R7, R8). -/

namespace Sys2Proof

/-- A byte is 8 bits (R7). -/
abbrev Byte := BitVec 8

/-- A 16-bit pattern: a calibration coefficient or a raw temperature (R5). -/
abbrev Half := BitVec 16

/-- A 32-bit word: a command word, or what the read port returns (R5). -/
abbrev Word := BitVec 32

/-- A 64-bit pattern: the pressure register (R5), or a binary64 (R235). -/
abbrev Long := BitVec 64

end Sys2Proof
end

