-- ==== Sys2Proof/Syntax.lean ====
section
/-! DEFINITION. The eight commands of the opcode table (30_encoding.md R82), with the operand fields it gives them. -/

namespace Sys2Proof

/-- A command of CPIPE. Operands are the unsigned bit fields of the command word (30_encoding.md R80, R81). -/
inductive Instr where
  /-- CALW: write calibration coefficient `k` (40_calibration.md R100); legal for k = 0..10. -/
  | calw (k : BitVec 4) (msb lsb : Byte)
  /-- CALCLR: clear the loaded mask (R101). -/
  | calclr
  /-- SETOSS: set the oversampling setting (41_input.md R120). -/
  | setoss (oss : BitVec 2)
  /-- LDUT: load the raw temperature (R121). -/
  | ldut (msb lsb : Byte)
  /-- LDUP: load the raw pressure and align it (R122). -/
  | ldup (msb lsb xlsb : Byte)
  /-- CMPT: compute the temperature (42_compensation.md R156). -/
  | cmpt
  /-- CMPP: compute the pressure (R157). -/
  | cmpp
  /-- SRST: soft reset of the block (43_control.md R200). -/
  | srst
  deriving DecidableEq, Repr

end Sys2Proof
end

