-- ==== Sys2Proof/WellFormed.lean ====
section
/-! DEFINITION. The one check on a command's operands: a coefficient index is 0..10 (30_encoding.md R82). Every other
operand fills its field. -/

namespace Sys2Proof

/-- The extra condition of CALW in R82: SEL <= 10. -/
def calIndexLegal (k : BitVec 4) : Bool := k.toNat ≤ 10

/-- The command is one a legal word stands for. -/
def Instr.wf : Instr → Bool
  | .calw k _ _ => calIndexLegal k
  | .calclr => true
  | .setoss _ => true
  | .ldut _ _ => true
  | .ldup _ _ _ => true
  | .cmpt => true
  | .cmpp => true
  | .srst => true

/-- `Instr.wf` as a proposition. -/
abbrev Instr.WellFormed (i : Instr) : Prop := i.wf = true

end Sys2Proof
end

