-- ==== Sys2Proof/Decode.lean ====
section
/-! DEFINITION. Decoding a command word (30_encoding.md R80 to R84), total on all 2^32 words, and the encoder written
from the same table. -/

namespace Sys2Proof

/-- OP, bits 31:28 (R80). -/
def fieldOp (w : Word) : BitVec 4 := w.extractLsb' 28 4
/-- SEL, bits 27:24. -/
def fieldSel (w : Word) : BitVec 4 := w.extractLsb' 24 4
/-- D2, bits 23:16. -/
def fieldD2 (w : Word) : Byte := w.extractLsb' 16 8
/-- D1, bits 15:8. -/
def fieldD1 (w : Word) : Byte := w.extractLsb' 8 8
/-- D0, bits 7:0. -/
def fieldD0 (w : Word) : Byte := w.extractLsb' 0 8

/-- Why a word is ILLEGAL: the causes 60_exceptions.md R260 lists for code 1. The block records none of them
("code only"); the names are the decoder's. DESIGN CHOICE (log 23), safe. -/
inductive Illegal where
  /-- OP 0x0 or 0x8..0xE. -/
  | unknownOpcode
  /-- A nonzero reserved field. -/
  | reservedField
  /-- CALW with SEL 11..15. -/
  | calIndex
  /-- An OP 0xF word other than 0xF00000B6. -/
  | resetKey
  deriving DecidableEq, Repr

/-- `decode` of R83, case by case: the command a word stands for, or why it is ILLEGAL. -/
def decode (w : Word) : Except Illegal Instr :=
  let sel := fieldSel w
  let d2 := fieldD2 w
  let d1 := fieldD1 w
  let d0 := fieldD0 w
  match (fieldOp w).toNat with
  | 0x1 => if calIndexLegal sel then (if d2 = 0 then .ok (.calw sel d1 d0) else .error .reservedField)
           else .error .calIndex
  | 0x2 => if w = 0x20000000 then .ok .calclr else .error .reservedField
  | 0x3 => if sel.extractLsb' 2 2 = 0 ∧ w.extractLsb' 0 24 = 0 then .ok (.setoss (sel.extractLsb' 0 2))
           else .error .reservedField
  | 0x4 => if sel = 0 ∧ d2 = 0 then .ok (.ldut d1 d0) else .error .reservedField
  | 0x5 => if sel = 0 then .ok (.ldup d2 d1 d0) else .error .reservedField
  | 0x6 => if w = 0x60000000 then .ok .cmpt else .error .reservedField
  | 0x7 => if w = 0x70000000 then .ok .cmpp else .error .reservedField
  | 0xF => if w = 0xF00000B6 then .ok .srst else .error .resetKey
  | _ => .error .unknownOpcode

/-- The word of the five fields of R80. -/
def packFields (op sel : BitVec 4) (d2 d1 d0 : Byte) : Word := op ++ sel ++ d2 ++ d1 ++ d0

/-- The word of a command: the rows of R82, field by field. -/
def encode : Instr → Word
  | .calw k msb lsb => packFields 0x1 k 0 msb lsb
  | .calclr => packFields 0x2 0 0 0 0
  | .setoss oss => packFields 0x3 ((0 : BitVec 2) ++ oss) 0 0 0
  | .ldut msb lsb => packFields 0x4 0 0 msb lsb
  | .ldup msb lsb xlsb => packFields 0x5 0 msb lsb xlsb
  | .cmpt => packFields 0x6 0 0 0 0
  | .cmpp => packFields 0x7 0 0 0 0
  | .srst => packFields 0xF 0 0 0 0xB6

/-- A row of R82's table: mnemonic, match, mask, and the greatest legal SEL (15 where the row has no extra condition). -/
structure OpcodeRow where
  mnemonic : String
  pattern : Word
  mask : Word
  selMax : Nat
  deriving DecidableEq, Repr

/-- The eight rows of R82, match and mask as the table prints them. -/
def opcodeRows : List OpcodeRow :=
  [⟨"CALW", 0x10000000, 0xF0FF0000, 10⟩,
   ⟨"CALCLR", 0x20000000, 0xFFFFFFFF, 15⟩,
   ⟨"SETOSS", 0x30000000, 0xFCFFFFFF, 15⟩,
   ⟨"LDUT", 0x40000000, 0xFFFF0000, 15⟩,
   ⟨"LDUP", 0x50000000, 0xFF000000, 15⟩,
   ⟨"CMPT", 0x60000000, 0xFFFFFFFF, 15⟩,
   ⟨"CMPP", 0x70000000, 0xFFFFFFFF, 15⟩,
   ⟨"SRST", 0xF00000B6, 0xFFFFFFFF, 15⟩]

/-- A word is the command in a row when `(w & mask) = match` and the row's extra condition holds (R82). -/
def OpcodeRow.matches (r : OpcodeRow) (w : Word) : Bool :=
  (w &&& r.mask) = r.pattern ∧ (fieldSel w).toNat ≤ r.selMax

/-- The row of R82 a command belongs to, by mnemonic. -/
def Instr.mnemonic : Instr → String
  | .calw _ _ _ => "CALW"
  | .calclr => "CALCLR"
  | .setoss _ => "SETOSS"
  | .ldut _ _ => "LDUT"
  | .ldup _ _ _ => "LDUP"
  | .cmpt => "CMPT"
  | .cmpp => "CMPP"
  | .srst => "SRST"

/-- The word of an instruction whose low `nbits` bits are `w`'s and whose other bits are 0. Every command is one 32-bit
word (R80), so bit n of the table is bit n of the word. -/
def tableWord (nbits w : Nat) : Word := BitVec.ofNat 32 (w % 2 ^ nbits)

/-- What the decoder reads from a table word; `none` where it refuses it or it does not fit one 32-bit word
(log 22). -/
def decodeTableWord (nbits w : Nat) : Option Instr :=
  if w % 2 ^ nbits < 2 ^ 32 then
    match decode (tableWord nbits w) with
    | .ok i => some i
    | .error _ => none
  else none

end Sys2Proof
end

