-- ==== Sys2Proof/Config.lean ====
section
/-! DEFINITION. What is fixed for the system and is not state: the OPEN delay parameters, the host's configuration
defaults, and the one free value (of the device, not of the block). -/

namespace Sys2Proof.Config

/-- LOADED with all eleven bits set: CAL_VALID's condition (10_state.md R24). -/
def allLoaded : BitVec 11 := 0x7FF

/-- The OPEN parameters of 00_scope.md R6: minimum waits in the host's time, taken as arguments. No value of one is in
the spec (91_not_in_source.md N3, N7), so a statement about a macro holds for every `Delays`. -/
structure Delays where
  /-- REGISTER_TURNAROUND_DELAY (70_reset_and_hazards.md R305). -/
  registerTurnaround : Nat
  /-- CONVERSION_SETTLE_DELAY_T (R306). -/
  settleTemperature : Nat
  /-- CONVERSION_SETTLE_DELAY_P(oss), oss = 0..3 (R306). -/
  settlePressure : Vector Nat 4
  /-- RESET_STARTUP_DELAY (R311). -/
  resetStartup : Nat
  deriving DecidableEq, Repr

/-- CONVERSION_SETTLE_DELAY_P(oss). -/
def Delays.pressure (d : Delays) (oss : BitVec 2) : Nat := d.settlePressure[oss.toFin]

/-- The default device address DEV_ADDR, 7 bits (44_host_protocol.md R240). -/
def devAddr : BitVec 7 := 0x77

/-- The default bus path BUS_PATH (R240), as its characters. -/
def busPath : List Char := "/dev/i2c-1".toList

/-- FREE VALUE (log 14). A byte the device returns where the spec says that it is any value, or says nothing of it: a
result byte read before its settle time (70_reset_and_hazards.md R306), one no conversion has given, and any byte, of
calibration too, read before the device has started up after a soft reset (log 26). Nothing is known of it; its argument
counts such reads. -/
opaque freeDeviceByte : Nat → Byte

end Sys2Proof.Config
end

