-- ==== Sys2Proof/Machine/State.lean ====
section
/-! DEFINITION. The state of the block: the thirteen fields of 10_state.md R20, and the host's moves still to be performed. -/

namespace Sys2Proof.Machine

/-- A move of the host on the block's inputs: a word on the command port (20_memory.md R50), or the reset input asserted
(70_reset_and_hazards.md R300; DEDUCED, log 2). A read of the read port changes nothing (R51) and needs no move (log 8). -/
inductive Input where
  | command (w : Word)
  | reset
  deriving DecidableEq, Repr

/-- The fault codes of 60_exceptions.md R260. A fault is taken inside the machine; it stops nothing. -/
inductive FaultCode where
  | illegalCommand
  | calNotLoaded
  | utNotLoaded
  | upNotLoaded
  | divZeroTemp
  | divZeroPres
  deriving DecidableEq, Repr

/-- Why the machine would stop. CPIPE never does: a faulting command records its code and the next command is accepted
at once (60_exceptions.md R263), so there is no constructor and nothing raises one. -/
inductive Fault where
  deriving DecidableEq, Repr

/-- Why the model would have no meaning for an instruction. -/
inductive Refusal where
  /-- Raised only by an arm of `exec` whose instruction has no meaning yet; none is left. Safe: the run stops. -/
  | notModelled (mnemonic : String)
  deriving DecidableEq, Repr

/-- The complete architectural state of CPIPE (10_state.md R20), one field a row of its table, and `inputs`. -/
structure State where
  /-- CAL[0..10], raw patterns (R21). -/
  cal : Vector Half 11
  /-- LOADED, bit k for CAL[k] (R23). -/
  loaded : BitVec 11
  /-- OSS (R25). -/
  oss : BitVec 2
  /-- UT (R26). -/
  ut : Half
  /-- UT_VALID (R26). -/
  utValid : Bool
  /-- UP (R27). -/
  up : Word
  /-- UP_VALID (R27). -/
  upValid : Bool
  /-- TEMP, an S32 pattern (R28). -/
  temp : Word
  /-- T_VALID (R28). -/
  tValid : Bool
  /-- PRES, an S64 pattern (R29). -/
  pres : Long
  /-- P_VALID (R29). -/
  pValid : Bool
  /-- FAULT_FIRST (R30). -/
  faultFirst : BitVec 4
  /-- FAULT_MASK; bit 0 is hard-wired to 0, see `State.faultMaskRead` (R31). -/
  faultMask : BitVec 7
  /-- The model's own field, not the block's: the host's moves not yet performed, oldest first. DESIGN CHOICE (log 1). -/
  inputs : List Input
  deriving DecidableEq, Repr

/-- Reset (10_state.md R36): every field 0. The host has nothing pending (log 1). -/
def State.reset : State where
  cal := Vector.replicate 11 0
  loaded := 0
  oss := 0
  ut := 0
  utValid := false
  up := 0
  upValid := false
  temp := 0
  tValid := false
  pres := 0
  pValid := false
  faultFirst := 0
  faultMask := 0
  inputs := []

end Sys2Proof.Machine
end

