-- ==== Sys2Proof/Machine/Flags.lean ====
section
/-! DEFINITION. The derived status bits and the STATUS word (10_state.md R24, R32). The block has no arithmetic flags:
its only status bits are the stored valid bits and these views. -/

namespace Sys2Proof.Machine

/-- CAL_VALID: LOADED = 0x7FF (R24). -/
def State.calValid (s : State) : Bool := s.loaded == Config.allLoaded

/-- FAULTED: FAULT_FIRST != 0 (R32). -/
def State.faulted (s : State) : Bool := s.faultFirst != 0

/-- One bit of a status word. -/
def bit (b : Bool) : BitVec 1 := BitVec.ofBool b

/-- STATUS as the read port shows it (R32): bits 31:8 zero, OSS, FAULTED, P_VALID, T_VALID, UP_VALID, UT_VALID,
CAL_VALID. -/
def State.statusWord (s : State) : Word :=
  (0 : BitVec 24) ++ s.oss ++ bit s.faulted ++ bit s.pValid ++ bit s.tValid ++ bit s.upValid ++ bit s.utValid ++
    bit s.calValid

end Sys2Proof.Machine
end

