-- ==== Sys2Proof/Machine/Operands.lean ====
section
/-! DEFINITION. Value types, arithmetic operators (00_scope.md R8, R9) and operand assembly (30_encoding.md R81). -/

namespace Sys2Proof.Machine

/-! ### Readings of a pattern and the two conversions -/

/-- `sext_n` (R8): the two's-complement number of a pattern. -/
def sext {n : Nat} (v : BitVec n) : Int := v.toInt

/-- `zext_n` (R8): the unsigned number of a pattern. -/
def zext {n : Nat} (v : BitVec n) : Int := (v.toNat : Int)

/-- `u32(x)` (R8, R141): x mod 2^32. A U32 is a 32-bit pattern read as unsigned. -/
def u32 (x : Int) : Word := BitVec.ofInt 32 x

/-- `s64(u)` (R8, R141): the same number, zero extension. -/
def s64 (u : Word) : Int := (u.toNat : Int)

/-! ### Operators -/

/-- `asr(x, n)` = floor(x / 2^n) (R9, R142). `Int`'s `/` is floor for a positive divisor. -/
def asr (x : Int) (n : Nat) : Int := x / 2 ^ n

/-- `x << n` on a signed value is x * 2^n (R9). -/
def shl (x : Int) (n : Nat) : Int := x * 2 ^ n

/-- `tdiv(a, b)`, truncating toward zero (R9, R142). Every use guards `b = 0`. -/
def tdiv (a b : Int) : Int := Int.tdiv a b

/-- `lsr(u, n)`, the logical right shift of a U32 (R9). -/
def lsr (u : Word) (n : Nat) : Word := u >>> n

/-- `udiv(a, b)` = floor(a / b) of U32 (R9). Every use guards `b = 0`. -/
def udiv (a b : Word) : Word := a / b

/-! ### Operand assembly, big-endian (R81; 20_memory.md R56) -/

/-- `v16 = {D1, D0}`. -/
def v16 (d1 d0 : Byte) : Half := d1 ++ d0

/-- `raw24 = {D2, D1, D0}`. -/
def raw24 (d2 d1 d0 : Byte) : BitVec 24 := d2 ++ d1 ++ d0

/-- The UP that LDUP latches (41_input.md R122): a logical shift of the unsigned 24-bit value by 8 - OSS, then
zero-extended. -/
def alignUp (raw : BitVec 24) (oss : BitVec 2) : Word := (raw >>> (8 - oss.toNat)).setWidth 32

/-! ### Coefficients as numbers (10_state.md R22) -/

/-- The eleven coefficient values, named as in R21. -/
structure Coeffs where
  ac1 : Int
  ac2 : Int
  ac3 : Int
  ac4 : Int
  ac5 : Int
  ac6 : Int
  b1 : Int
  b2 : Int
  mb : Int
  mc : Int
  md : Int
  deriving DecidableEq, Repr

/-- Whether a coefficient is signed: AC4, AC5 and AC6 (k = 3, 4, 5) are not (R21). -/
def coeffSigned (k : Nat) : Bool := !(k == 3 || k == 4 || k == 5)

/-- The number a coefficient's pattern stands for, by its signedness (R22). -/
def coeffValue (k : Nat) (v : Half) : Int := if coeffSigned k then sext v else zext v

/-- The values of the whole file (R22). -/
def coeffs (cal : Vector Half 11) : Coeffs where
  ac1 := coeffValue 0 cal[0]
  ac2 := coeffValue 1 cal[1]
  ac3 := coeffValue 2 cal[2]
  ac4 := coeffValue 3 cal[3]
  ac5 := coeffValue 4 cal[4]
  ac6 := coeffValue 5 cal[5]
  b1 := coeffValue 6 cal[6]
  b2 := coeffValue 7 cal[7]
  mb := coeffValue 8 cal[8]
  mc := coeffValue 9 cal[9]
  md := coeffValue 10 cal[10]

end Sys2Proof.Machine
end

