-- ==== Sys2Proof/Machine/Ops.lean ====
section
/-! DEFINITION. The named operations on the registers, taking a fault (60_exceptions.md R261, R263), reset
(10_state.md R36) and the host's next input. -/

namespace Sys2Proof.Machine

/-- What a meaning answers. -/
abbrev Result := Host.Outcome State Fault Refusal

/-! ### Taking a fault. There is no return from one (60_exceptions.md R264). -/

/-- The code of a fault (R260). -/
def FaultCode.code : FaultCode → Nat
  | .illegalCommand => 1
  | .calNotLoaded => 2
  | .utNotLoaded => 3
  | .upNotLoaded => 4
  | .divZeroTemp => 5
  | .divZeroPres => 6

/-- The code as FAULT_FIRST holds it. -/
def FaultCode.first (c : FaultCode) : BitVec 4 := BitVec.ofNat 4 c.code

/-- The code's bit of FAULT_MASK. -/
def FaultCode.maskBit (c : FaultCode) : BitVec 7 := BitVec.twoPow 7 c.code

/-- `raise Fault(c)` (R261): FAULT_MASK[c] <- 1, and FAULT_FIRST <- c if it was 0. No address, status or mode is saved
and control goes nowhere (R263). -/
def raiseFault (c : FaultCode) (s : State) : State :=
  { s with
    faultMask := s.faultMask ||| c.maskBit
    faultFirst := if s.faultFirst = 0 then c.first else s.faultFirst }

/-- FAULT_MASK as it reads: bit 0 is hard-wired to 0 (10_state.md R31). DEDUCED (log 6): a write can never set the
stored bit, and the one read of the register masks it. -/
def State.faultMaskRead (s : State) : BitVec 7 := s.faultMask &&& 0x7E

/-! ### Registers -/

/-- CAL[k] <- v. An index above 10 names no register and writes nothing; no caller gives one. -/
def State.setCal (s : State) (k : Nat) (v : Half) : State := { s with cal := s.cal.setIfInBounds k v }

/-- LOADED[k] <- 1 (10_state.md R23). -/
def State.setLoaded (s : State) (k : Nat) : State := { s with loaded := s.loaded ||| BitVec.twoPow 11 k }

/-- LOADED <- 0. -/
def State.clearLoaded (s : State) : State := { s with loaded := 0 }

/-- OSS <- o. -/
def State.setOss (s : State) (o : BitVec 2) : State := { s with oss := o }

/-- UT <- v, UT_VALID <- 1. -/
def State.latchUt (s : State) (v : Half) : State := { s with ut := v, utValid := true }

/-- UP <- v, UP_VALID <- 1. -/
def State.latchUp (s : State) (v : Word) : State := { s with up := v, upValid := true }

/-- UT_VALID <- 0: the reading is consumed. -/
def State.consumeUt (s : State) : State := { s with utValid := false }

/-- UP_VALID <- 0. -/
def State.dropUp (s : State) : State := { s with upValid := false }

/-- TEMP <- Bits<32>(t), T_VALID <- 1 (10_state.md R28). -/
def State.putTemp (s : State) (t : Int) : State := { s with temp := BitVec.ofInt 32 t, tValid := true }

/-- T_VALID <- 0. -/
def State.dropTemp (s : State) : State := { s with tValid := false }

/-- PRES <- Bits<64>(p), P_VALID <- 1 (10_state.md R29). -/
def State.putPres (s : State) (p : Int) : State := { s with pres := BitVec.ofInt 64 p, pValid := true }

/-- P_VALID <- 0. -/
def State.dropPres (s : State) : State := { s with pValid := false }

/-! ### Reset and the host's inputs -/

/-- `s <- ResetState` (43_control.md R200, 70_reset_and_hazards.md R300): every field of R20. What the host has still to
issue is the host's and stays. DEDUCED (log 9). -/
def State.resetBlock (s : State) : State := { State.reset with inputs := s.inputs }

/-- The host's next move, and the state once it is taken (20_memory.md R50, R60). -/
def State.takeInput (s : State) : Option (Input × State) :=
  match s.inputs with
  | [] => none
  | i :: rest => some (i, { s with inputs := rest })

/-- The state after an outcome; a command of CPIPE never stops, so the second argument is never used. -/
def stateAfter (o : Result) (s : State) : State :=
  match o with
  | .next t => t
  | .fault _ => s
  | .refused _ => s

end Sys2Proof.Machine
end

