-- ==== Sys2Proof/Machine/Calibration.lean ====
section
/-! DEFINITION. Calibration commands (40_calibration.md). -/

namespace Sys2Proof.Machine

/-- CALW (R100): CAL[k] <- {D1, D0}, LOADED[k] <- 1. A term with k = 11..15 stands for a word that is ILLEGAL
(30_encoding.md R84) and takes that word's fault; no step reaches it. DESIGN CHOICE (log 4). -/
def execCalw (k : BitVec 4) (msb lsb : Byte) (s : State) : Result :=
  if calIndexLegal k then .next ((s.setCal k.toNat (v16 msb lsb)).setLoaded k.toNat)
  else .next (raiseFault .illegalCommand s)

/-- CALCLR (R101): LOADED <- 0; CAL keeps its patterns. -/
def execCalclr (s : State) : Result := .next s.clearLoaded

end Sys2Proof.Machine
end

