-- ==== Sys2Proof/Machine/Compensation.lean ====
section
/-! DEFINITION. The stages of the compensation algorithm (42_compensation.md R143 to R155), one definition a stage, and
the functional form `Temp`, `Pres` of R159.

Signed stages are exact integers: R140 says that no S64 stage wraps, "so a model may use unbounded integers for every
signed stage and obtain the S64 result exactly" (log 5; Machine/FixedWidth.lean has the S64 form). U32 stages are 32-bit
patterns and wrap (R141). -/

namespace Sys2Proof.Machine

/-! ### Temperature stages. The source's primed names (00_scope.md R11) are written with a p for each prime. -/

/-- T1, x1 (R143). -/
def stageX1 (c : Coeffs) (ut : Int) : Int := asr ((ut - c.ac6) * c.ac5) 15

/-- The divisor of T2 (R144). -/
def stageDen (c : Coeffs) (ut : Int) : Int := stageX1 c ut + c.md

/-- T2, x2 (R144), for a nonzero divisor. -/
def stageX2 (c : Coeffs) (ut : Int) : Int := tdiv (shl c.mc 11) (stageDen c ut)

/-- T1 to T3: b5 (R145), or DIV_ZERO_TEMP. -/
def stageB5 (c : Coeffs) (ut : Int) : Except FaultCode Int :=
  if stageDen c ut = 0 then .error .divZeroTemp else .ok (stageX1 c ut + stageX2 c ut)

/-- T4, T10 (R146). -/
def stageT10 (b5 : Int) : Int := asr (b5 + 8) 4

/-! ### Pressure stages, from b5 -/

/-- P1, b6 (R147). -/
def stageB6 (b5 : Int) : Int := b5 - 4000

/-- P1, sq (R147). -/
def stageSq (b6 : Int) : Int := asr (b6 * b6) 12

/-- P2, x1' (R148). -/
def stageX1p (c : Coeffs) (b6 : Int) : Int := asr (c.b2 * stageSq b6) 11

/-- P2, x2' (R148). -/
def stageX2p (c : Coeffs) (b6 : Int) : Int := asr (c.ac2 * b6) 11

/-- P2, x3 (R148). -/
def stageX3 (c : Coeffs) (b6 : Int) : Int := stageX1p c b6 + stageX2p c b6

/-- P3, b3 (R149): a truncating division. -/
def stageB3 (c : Coeffs) (b6 : Int) (oss : BitVec 2) : Int :=
  tdiv (shl (c.ac1 * 4 + stageX3 c b6) oss.toNat + 2) 4

/-- P4, x1'' (R150). -/
def stageX1pp (c : Coeffs) (b6 : Int) : Int := asr (c.ac3 * b6) 13

/-- P4, x2'' (R150). -/
def stageX2pp (c : Coeffs) (b6 : Int) : Int := asr (c.b1 * stageSq b6) 16

/-- P4, x3' (R150): a floor shift. -/
def stageX3p (c : Coeffs) (b6 : Int) : Int := asr (stageX1pp c b6 + stageX2pp c b6 + 2) 2

/-- P5, b4 (R151), U32. The offset is 32768 (90_conflicts.md C1). -/
def stageB4 (c : Coeffs) (b6 : Int) : Word := lsr (u32 c.ac4 * u32 (stageX3p c b6 + 32768)) 15

/-- `50000 >> oss` (R152). -/
def ossFactor (oss : BitVec 2) : Word := lsr 50000 oss.toNat

/-- P6, b7 (R152), U32. -/
def stageB7 (up b3 : Int) (oss : BitVec 2) : Word := u32 (up - b3) * ossFactor oss

/-- P7, pq (R153), for a nonzero b4: an unsigned comparison, two roundings. -/
def stagePq (b7 b4 : Word) : Word := if b7 < 0x80000000 then udiv (b7 * 2) b4 else udiv b7 b4 * 2

/-- P8, x1''' (R154): the shift takes the whole product (90_conflicts.md C6). -/
def stageX1ppp (p : Int) : Int := asr (asr p 8 * asr p 8 * 3038) 16

/-- P8, x2''' (R154). -/
def stageX2ppp (p : Int) : Int := asr (-7357 * p) 16

/-- P9, P (R155). -/
def stageP (p : Int) : Int := p + asr (stageX1ppp p + stageX2ppp p + 3791) 4

/-! ### The functional form (R159) -/

/-- `Temp(c, ut)`: T10, or DIV_ZERO_TEMP. -/
def tempOf (c : Coeffs) (ut : Int) : Except FaultCode Int :=
  match stageB5 c ut with
  | .error e => .error e
  | .ok b5 => .ok (stageT10 b5)

/-- The pressure half, from b5: P, or DIV_ZERO_PRES. -/
def presFromB5 (c : Coeffs) (b5 up : Int) (oss : BitVec 2) : Except FaultCode Int :=
  let b6 := stageB6 b5
  let b4 := stageB4 c b6
  if b4 = 0 then .error .divZeroPres
  else .ok (stageP (s64 (stagePq (stageB7 up (stageB3 c b6 oss) oss) b4)))

/-- `Pres(c, ut, up, oss)`: P, or DIV_ZERO_TEMP, or DIV_ZERO_PRES. -/
def presOf (c : Coeffs) (ut up : Int) (oss : BitVec 2) : Except FaultCode Int :=
  match stageB5 c ut with
  | .error e => .error e
  | .ok b5 => presFromB5 c b5 up oss

end Sys2Proof.Machine
end

