-- ==== Sys2Proof/Machine/Compute.lean ====
section
/-! DEFINITION. The compute commands CMPT and CMPP (42_compensation.md R156 to R158): the checks in their order, then the
stages, then every write of the success path. -/

namespace Sys2Proof.Machine

/-- A faulting CMPT (60_exceptions.md R263): T_VALID <- 0 and the fault registers. -/
def faultCmpt (c : FaultCode) (s : State) : State := raiseFault c s.dropTemp

/-- A faulting CMPP (R263): P_VALID <- 0 and the fault registers. -/
def faultCmpp (c : FaultCode) (s : State) : State := raiseFault c s.dropPres

/-- `Temp` on the registers: UT stands for zext_16(UT). -/
def State.tempResult (s : State) : Except FaultCode Int := tempOf (coeffs s.cal) (zext s.ut)

/-- `Pres` on the registers. -/
def State.presResult (s : State) : Except FaultCode Int := presOf (coeffs s.cal) (zext s.ut) (zext s.up) s.oss

/-- CMPT's checks and stages in order (R156, R158). -/
def State.cmptOutcome (s : State) : Except FaultCode Int :=
  if s.calValid = false then .error .calNotLoaded
  else if s.utValid = false then .error .utNotLoaded
  else s.tempResult

/-- CMPP's checks and stages in order (R157, R158). -/
def State.cmppOutcome (s : State) : Except FaultCode Int :=
  if s.calValid = false then .error .calNotLoaded
  else if s.utValid = false then .error .utNotLoaded
  else if s.upValid = false then .error .upNotLoaded
  else s.presResult

/-- CMPT (R156). -/
def execCmpt (s : State) : Result :=
  match s.cmptOutcome with
  | .error c => .next (faultCmpt c s)
  | .ok t10 => .next (s.putTemp t10).consumeUt

/-- CMPP (R157): TEMP and T_VALID are never changed. -/
def execCmpp (s : State) : Result :=
  match s.cmppOutcome with
  | .error c => .next (faultCmpp c s)
  | .ok p => .next (s.putPres p).consumeUt.dropUp

end Sys2Proof.Machine
end

