-- ==== Sys2Proof/Machine/Control.lean ====
section
/-! DEFINITION. The control command (43_control.md). -/

namespace Sys2Proof.Machine

/-- SRST (R200): every field of 10_state.md R20 takes its reset value. -/
def execSrst (s : State) : Result := .next s.resetBlock

end Sys2Proof.Machine
end

