-- ==== Sys2Proof/Machine/RawInput.lean ====
section
/-! DEFINITION. Mode and raw-input commands (41_input.md). -/

namespace Sys2Proof.Machine

/-- SETOSS (R120): OSS <- o, and UP_VALID <- 0 always. -/
def execSetoss (oss : BitVec 2) (s : State) : Result := .next (s.setOss oss).dropUp

/-- LDUT (R121): UT <- {D1, D0}, UT_VALID <- 1. -/
def execLdut (msb lsb : Byte) (s : State) : Result := .next (s.latchUt (v16 msb lsb))

/-- LDUP (R122): UP <- raw24 >> (8 - OSS) with the OSS held now, UP_VALID <- 1. -/
def execLdup (msb lsb xlsb : Byte) (s : State) : Result := .next (s.latchUp (alignUp (raw24 msb lsb xlsb) s.oss))

end Sys2Proof.Machine
end

