-- ==== Sys2Proof/Machine/Dispatch.lean ====
section
/-! DEFINITION. One arm per command: its meaning. -/

namespace Sys2Proof.Machine

-- The meaning of a decoded command (20_memory.md R60, 70_reset_and_hazards.md R309).
def exec (i : Instr) (s : State) : Host.Outcome State Fault Refusal :=
  match i with
  | .calw k msb lsb => Sys2Proof.Machine.execCalw k msb lsb s
  | .calclr => Sys2Proof.Machine.execCalclr s
  | .setoss oss => Sys2Proof.Machine.execSetoss oss s
  | .ldut msb lsb => Sys2Proof.Machine.execLdut msb lsb s
  | .ldup msb lsb xlsb => Sys2Proof.Machine.execLdup msb lsb xlsb s
  | .cmpt => Sys2Proof.Machine.execCmpt s
  | .cmpp => Sys2Proof.Machine.execCmpp s
  | .srst => Sys2Proof.Machine.execSrst s

end Sys2Proof.Machine
end

