-- ==== Sys2Proof/Machine/Perform.lean ====
section
/-! DEFINITION. Performing a command word: decode it, then its meaning; and runs of words. -/

namespace Sys2Proof.Machine

/-- Perform one word (30_encoding.md R83, R84): a legal word has its command's meaning, an ILLEGAL one raises
ILLEGAL_COMMAND and changes nothing else. -/
def perform (w : Word) (s : State) : Result :=
  match decode w with
  | .ok i => exec i s
  | .error _ => .next (raiseFault .illegalCommand s)

/-- One move of the host on the block: a word, or the reset input (70_reset_and_hazards.md R300). -/
def applyInput (i : Input) (s : State) : Result :=
  match i with
  | .command w => perform w s
  | .reset => .next s.resetBlock

/-- `Issue(w)` (00_scope.md R10): the host hands the block one word, and it is complete before anything else happens
(R60). -/
def issue (w : Word) (s : State) : State := stateAfter (perform w s) s

/-- A sequence of words issued in order. -/
def issueAll (ws : List Word) (s : State) : State := ws.foldl (fun t w => issue w t) s

/-- Bring the machine to the host's next move: with none the block waits and keeps all state (60_exceptions.md R275;
10_state.md R33). DEDUCED (log 3). -/
def stepHost (s : State) : Result :=
  match s.takeInput with
  | none => .next s
  | some (i, t) => applyInput i t

end Sys2Proof.Machine
end

