-- ==== Sys2Proof/Machine/Step.lean ====
section
/-! DEFINITION. One step of the machine: the host's next move is performed, whole. -/

namespace Sys2Proof.Machine

/-- One step (70_reset_and_hazards.md R309: "A model is a function from (state, command) to state"). -/
def step (s : State) : Host.Outcome State Fault Refusal := stepHost s

/-- The instruction of a table word placed where `step` takes its next one: at the head of the host's moves (log 1). -/
def State.withFetchWord (s : State) (nbits w : Nat) : State :=
  { s with inputs := .command (tableWord nbits w) :: s.inputs }

end Sys2Proof.Machine
end

