-- ==== Sys2Proof/Machine/Assembler.lean ====
section
/-! DEFINITION. The assembler: command lines and pseudo-instructions (30_encoding.md R89, R90), from their text to command
words. An operand out of range is an assembly error, not an illegal word. -/

namespace Sys2Proof.Machine

/-- An assembly error (R89). -/
inductive AsmError where
  | unknownMnemonic
  | operandCount
  | badNumber
  | unknownName
  | outOfRange
  deriving DecidableEq, Repr

/-- A line's statement, operands as numbers. -/
inductive AsmLine where
  | calw (k msb lsb : Nat)
  | calclr
  | setoss (o : Nat)
  | ldut (msb lsb : Nat)
  | ldup (msb lsb xlsb : Nat)
  | cmpt
  | cmpp
  | srst
  | calv (k : Nat) (n : Int)
  | ldutv (n : Int)
  | ldupv (n : Int) (o : Nat)
  | calimg (bytes : List Nat)
  deriving DecidableEq, Repr

/-! ### Words of a statement -/

/-- The word of `CALW` (R89). -/
def calwWord (k msb lsb : Nat) : Word := BitVec.ofNat 32 (0x10000000 + k * 2 ^ 24 + msb * 2 ^ 8 + lsb)
/-- The word of `SETOSS`. -/
def setossWord (o : Nat) : Word := BitVec.ofNat 32 (0x30000000 + o * 2 ^ 24)
/-- The word of `LDUT`. -/
def ldutWord (msb lsb : Nat) : Word := BitVec.ofNat 32 (0x40000000 + msb * 2 ^ 8 + lsb)
/-- The word of `LDUP`. -/
def ldupWord (msb lsb xlsb : Nat) : Word := BitVec.ofNat 32 (0x50000000 + msb * 2 ^ 16 + lsb * 2 ^ 8 + xlsb)

/-- The value range of `CALV` (R90): signed, or unsigned for AC4, AC5, AC6. -/
def calvInRange (k : Nat) (n : Int) : Bool :=
  if coeffSigned k then -32768 ≤ n ∧ n ≤ 32767 else 0 ≤ n ∧ n ≤ 65535

/-- The eleven CALW of `CALIMG`, from index `k` on: two bytes each. -/
def calimgWords (k : Nat) : List Nat → List Word
  | msb :: lsb :: rest => calwWord k msb lsb :: calimgWords (k + 1) rest
  | _ => []

/-- The word(s) of a statement, or an error (R89, R90). -/
def assembleLine : AsmLine → Except AsmError (List Word)
  | .calw k msb lsb =>
    if k ≤ 10 ∧ msb ≤ 0xFF ∧ lsb ≤ 0xFF then .ok [calwWord k msb lsb] else .error .outOfRange
  | .calclr => .ok [0x20000000]
  | .setoss o => if o ≤ 3 then .ok [setossWord o] else .error .outOfRange
  | .ldut msb lsb => if msb ≤ 0xFF ∧ lsb ≤ 0xFF then .ok [ldutWord msb lsb] else .error .outOfRange
  | .ldup msb lsb xlsb =>
    if msb ≤ 0xFF ∧ lsb ≤ 0xFF ∧ xlsb ≤ 0xFF then .ok [ldupWord msb lsb xlsb] else .error .outOfRange
  | .cmpt => .ok [0x60000000]
  | .cmpp => .ok [0x70000000]
  | .srst => .ok [0xF00000B6]
  | .calv k n =>
    let v := (n % 65536).toNat
    if k ≤ 10 ∧ calvInRange k n then .ok [calwWord k (v / 256) (v % 256)] else .error .outOfRange
  | .ldutv n =>
    if 0 ≤ n ∧ n ≤ 65535 then .ok [ldutWord (n.toNat / 256) (n.toNat % 256)] else .error .outOfRange
  | .ldupv n o =>
    let r := n.toNat * 2 ^ (8 - o)
    if o ≤ 3 ∧ 0 ≤ n ∧ n < 2 ^ (16 + o) then .ok [ldupWord (r / 65536) (r / 256 % 256) (r % 256)]
    else .error .outOfRange
  | .calimg bytes =>
    if bytes.length = 22 ∧ bytes.all (· ≤ 0xFF) then .ok (0x20000000 :: calimgWords 0 bytes) else .error .outOfRange

/-! ### Reading the text. DESIGN CHOICE (log 21): names and mnemonics as R89 prints them, hexadecimal digits of either
case, blanks free between tokens but not inside `#<n>` or `oss=<o>`, `#-` before the digits of a negative n, a line feed
ends a line, an empty line is no command. -/

/-- Split at every `c`. -/
def splitAtChar (c : Char) : List Char → List (List Char)
  | [] => [[]]
  | x :: xs =>
    if x = c then [] :: splitAtChar c xs
    else
      match splitAtChar c xs with
      | [] => [[x]]
      | h :: t => (x :: h) :: t

/-- A blank within a line. -/
def isBlank (c : Char) : Bool := c = ' ' || c = '\t' || c = '\r'

/-- Without blanks at either end. -/
def trimBlanks (t : List Char) : List Char := ((t.dropWhile isBlank).reverse.dropWhile isBlank).reverse

/-- The value of a digit. -/
def digitValue (c : Char) : Option Nat :=
  let n := c.toNat
  if 48 ≤ n ∧ n ≤ 57 then some (n - 48)
  else if 65 ≤ n ∧ n ≤ 70 then some (n - 55)
  else if 97 ≤ n ∧ n ≤ 102 then some (n - 87)
  else none

/-- The digits of a number in a base. -/
def readDigits (base acc : Nat) : List Char → Option Nat
  | [] => some acc
  | c :: cs =>
    match digitValue c with
    | some d => if d < base then readDigits base (acc * base + d) cs else none
    | none => none

/-- A number, decimal or `0x` hexadecimal (R89). -/
def readNat : List Char → Option Nat
  | [] => none
  | '0' :: 'x' :: c :: cs => readDigits 16 0 (c :: cs)
  | c :: cs => readDigits 10 0 (c :: cs)

/-- `#<n>`, where n may be negative (R90). A negative n is `#-` and the number's digits, decimal or `0x`, and no blank may
stand inside (DESIGN CHOICE, log 21). -/
def readValue : List Char → Option Int
  | '#' :: '-' :: cs => (readNat cs).map (fun n => -(n : Int))
  | '#' :: cs => (readNat cs).map (fun n => (n : Int))
  | _ => none

/-- `oss=<o>` (R90), with no blank inside (DESIGN CHOICE, log 21). -/
def readOss : List Char → Option Nat
  | 'o' :: 's' :: 's' :: '=' :: cs => readNat cs
  | _ => none

/-- The coefficient names in index order (10_state.md R21). -/
def coeffNames : List (List Char) :=
  ["AC1".toList, "AC2".toList, "AC3".toList, "AC4".toList, "AC5".toList, "AC6".toList, "B1".toList, "B2".toList,
   "MB".toList, "MC".toList, "MD".toList]

/-- A coefficient by name or by index (R89). -/
def readCoeff (t : List Char) : Except AsmError Nat :=
  match coeffNames.findIdx? (· == t) with
  | some k => .ok k
  | none => match readNat t with
    | some k => if k ≤ 10 then .ok k else .error .outOfRange
    | none => .error .unknownName

/-- Every operand a number. -/
def readNats : List (List Char) → Except AsmError (List Nat)
  | [] => .ok []
  | t :: ts =>
    match readNat t with
    | none => .error .badNumber
    | some n =>
      match readNats ts with
      | .error e => .error e
      | .ok ns => .ok (n :: ns)

/-- The operands of a statement, comma-separated. -/
def splitOperands (t : List Char) : List (List Char) :=
  if trimBlanks t = [] then [] else (splitAtChar ',' t).map trimBlanks

/-- A statement whose operands are all numbers. -/
def numericLine (m : List Char) (ns : List Nat) : Except AsmError AsmLine :=
  if m = "CALCLR".toList then (match ns with | [] => .ok .calclr | _ => .error .operandCount)
  else if m = "SETOSS".toList then (match ns with | [o] => .ok (.setoss o) | _ => .error .operandCount)
  else if m = "LDUT".toList then (match ns with | [a, b] => .ok (.ldut a b) | _ => .error .operandCount)
  else if m = "LDUP".toList then (match ns with | [a, b, c] => .ok (.ldup a b c) | _ => .error .operandCount)
  else if m = "CMPT".toList then (match ns with | [] => .ok .cmpt | _ => .error .operandCount)
  else if m = "CMPP".toList then (match ns with | [] => .ok .cmpp | _ => .error .operandCount)
  else if m = "SRST".toList then (match ns with | [] => .ok .srst | _ => .error .operandCount)
  else if m = "CALIMG".toList then
    (if ns.length = 22 then .ok (.calimg ns) else .error .operandCount)
  else .error .unknownMnemonic

/-- The statement of a mnemonic and its operands. -/
def parseStatement (m : List Char) (ops : List (List Char)) : Except AsmError AsmLine :=
  if m = "CALW".toList then
    match ops with
    | [name, a, b] =>
      match readCoeff name, readNat a, readNat b with
      | .ok k, some x, some y => .ok (.calw k x y)
      | .error e, _, _ => .error e
      | _, _, _ => .error .badNumber
    | _ => .error .operandCount
  else if m = "CALV".toList then
    match ops with
    | [name, v] =>
      match readCoeff name, readValue v with
      | .ok k, some n => .ok (.calv k n)
      | .error e, _ => .error e
      | _, none => .error .badNumber
    | _ => .error .operandCount
  else if m = "LDUTV".toList then
    match ops with
    | [v] => match readValue v with
      | some n => .ok (.ldutv n)
      | none => .error .badNumber
    | _ => .error .operandCount
  else if m = "LDUPV".toList then
    match ops with
    | [v, o] => match readValue v, readOss o with
      | some n, some k => .ok (.ldupv n k)
      | _, _ => .error .badNumber
    | _ => .error .operandCount
  else
    match readNats ops with
    | .error e => .error e
    | .ok ns => numericLine m ns

/-- One line of text: `;` starts a comment; an empty line is no command (R89). -/
def parseLine (line : List Char) : Except AsmError (Option AsmLine) :=
  let t := trimBlanks (line.takeWhile (· != ';'))
  if t = [] then .ok none
  else
    let m := t.takeWhile (fun c => !isBlank c)
    match parseStatement m (splitOperands (t.dropWhile (fun c => !isBlank c))) with
    | .error e => .error e
    | .ok l => .ok (some l)

/-- The words of one line of text. -/
def assembleTextLine (line : List Char) : Except AsmError (List Word) :=
  match parseLine line with
  | .error e => .error e
  | .ok none => .ok []
  | .ok (some l) => assembleLine l

/-- The words of a list of lines. -/
def assembleLines : List (List Char) → Except AsmError (List Word)
  | [] => .ok []
  | line :: rest =>
    match assembleTextLine line, assembleLines rest with
    | .ok ws, .ok more => .ok (ws ++ more)
    | .error e, _ => .error e
    | _, .error e => .error e

/-- A program's text to its command words, one command a line (R89). -/
def assemble (text : List Char) : Except AsmError (List Word) := assembleLines (splitAtChar '\n' text)

end Sys2Proof.Machine
end

