-- ==== Sys2Proof/Machine/Binary64.lean ====
section
/-! DEFINITION. The binary64 arithmetic of the host's two conversions (44_host_protocol.md R235, R236): integer to double,
and a multiplication rounded to nearest, ties to even. A double is its 64-bit pattern. PRESUMED, as the spec marks it
(log 20). Every number here is zero or has a magnitude between 2^-4 and 2^63, so no result is subnormal or infinite; the
encoder is for that range only. -/

namespace Sys2Proof.Machine

/-- A finite number as sign, significand and exponent: (-1)^neg * mant * 2^expo. -/
structure Scaled where
  neg : Bool
  mant : Nat
  expo : Int
  deriving DecidableEq, Repr

/-- The value of a scaled number. -/
def Scaled.value (x : Scaled) : Rat := (if x.neg then -1 else 1) * (x.mant : Rat) * (2 : Rat) ^ x.expo

/-- m / 2^k rounded to the nearest integer, ties to even. -/
def roundShift (m k : Nat) : Nat :=
  let q := m / 2 ^ k
  let r := m % 2 ^ k
  if 2 * r > 2 ^ k ∨ (2 * r = 2 ^ k ∧ q % 2 = 1) then q + 1 else q

/-- The scaled number with the same sign whose significand has 53 bits: exact below 2^53, rounded above. -/
def Scaled.round53 (x : Scaled) : Scaled :=
  let n := Nat.log2 x.mant + 1
  if n ≤ 53 then { x with mant := x.mant * 2 ^ (53 - n), expo := x.expo - (53 - n : Nat) }
  else
    let q := roundShift x.mant (n - 53)
    if q = 2 ^ 53 then { x with mant := 2 ^ 52, expo := x.expo + (n - 53 : Nat) + 1 }
    else { x with mant := q, expo := x.expo + (n - 53 : Nat) }

/-- The binary64 pattern of the nearest double: sign, biased exponent, 52 fraction bits. -/
def Scaled.toBinary64 (x : Scaled) : Long :=
  if x.mant = 0 then BitVec.ofBool x.neg ++ (0 : BitVec 63)
  else
    let y := x.round53
    BitVec.ofBool y.neg ++ BitVec.ofNat 11 (y.expo + 1075).toNat ++ BitVec.ofNat 52 y.mant

/-- The scaled number of a finite binary64 pattern. -/
def ofBinary64 (b : Long) : Scaled :=
  let e := (b.extractLsb' 52 11).toNat
  let f := (b.extractLsb' 0 52).toNat
  if e = 0 then ⟨b.msb, f, -1074⟩ else ⟨b.msb, 2 ^ 52 + f, (e : Int) - 1075⟩

/-- `double(z)`. -/
def doubleOfInt (z : Int) : Long := Scaled.toBinary64 ⟨decide (z < 0), z.natAbs, 0⟩

/-- The product of two doubles, rounded to nearest, ties to even. -/
def mulBinary64 (a b : Long) : Long :=
  let x := ofBinary64 a
  let y := ofBinary64 b
  Scaled.toBinary64 ⟨x.neg != y.neg, x.mant * y.mant, x.expo + y.expo⟩

/-- The binary64 constant nearest to 1/10: 7205759403792794 * 2^-56. -/
def oneTenth : Long := 0x3FB999999999999A

/-- What a host accessor returns: a double, or not-a-number (R237). -/
inductive Reading where
  | number (bits : Long)
  | nan
  deriving DecidableEq, Repr

/-- The host's `==`: NaN is "a value that fails equality with itself" (R237); the two zeros are equal. -/
def Reading.same : Reading → Reading → Bool
  | .number a, .number b => a == b || (a.setWidth 63 == 0 && b.setWidth 63 == 0)
  | .number _, .nan => false
  | .nan, .number _ => false
  | .nan, .nan => false

/-- TEMP_TO_C(t) = double(t) * 0.1 (R235), for t = sext_32 of TEMP. -/
def tempToC (t : Int) : Reading := .number (mulBinary64 (doubleOfInt t) oneTenth)

/-- PRES_TO_PA(u) = double(sext_64(u)) (R236). -/
def presToPa (u : Long) : Reading := .number (doubleOfInt (sext u))

end Sys2Proof.Machine
end

