-- ==== Sys2Proof/Machine/Device.lean ====
section
/-! DEFINITION. The sensor device as CPIPE's host meets it (20_memory.md R54; 44_host_protocol.md R228, R229;
60_exceptions.md R272). It is outside the block (R3); what the spec does not say of it is a free byte or a refusal. -/

namespace Sys2Proof.Machine

/-- A conversion the device can make (30_encoding.md R86). -/
inductive Measurement where
  | temperature
  | pressure (oss : BitVec 2)
  deriving DecidableEq, Repr

/-- How many result registers hold a conversion's result: 0xF6, 0xF7, and 0xF8 for pressure (R54). -/
def Measurement.width : Measurement → Nat
  | .temperature => 2
  | .pressure _ => 3

/-- The settle time of a conversion (70_reset_and_hazards.md R306). -/
def Measurement.settle (d : Config.Delays) : Measurement → Nat
  | .temperature => d.settleTemperature
  | .pressure oss => d.pressure oss

/-- The last conversion triggered: what it measures, the bytes it leaves from 0xF6 on (a byte missing here is any value),
and the time the host has waited since the trigger. -/
structure Conversion where
  what : Measurement
  bytes : List Byte
  waited : Nat
  deriving DecidableEq, Repr

/-- The device. It holds no bus address: it answers on every open channel (DESIGN CHOICE, log 27). `adc` is the physical world: the result bytes of the conversions to come, next first; where it has none,
a result is any value (DESIGN CHOICE, log 13). -/
structure Device where
  /-- 0xAA..0xBF, factory programmed (R88). -/
  calibration : Vector Byte 22
  conversion : Option Conversion
  /-- The time waited since a soft reset of the device; none: no reset yet. -/
  sinceReset : Option Nat
  adc : List (List Byte)
  deriving DecidableEq, Repr

/-- What a read of a device register gives. -/
inductive DeviceRead where
  | byte (b : Byte)
  /-- Any value: a result no conversion has given yet (93_implementation_defined.md I9), or any register of a device still
  starting up (log 26). -/
  | anyValue
  /-- A register the spec gives no read (91_not_in_source.md N6; log 15). -/
  | notNamed
  deriving DecidableEq, Repr

/-- RESET_STARTUP_DELAY has passed since the last soft reset (70_reset_and_hazards.md R311). A device that has not been
reset is started: OPEN waits for nothing (44_host_protocol.md R231). -/
def Device.started (d : Config.Delays) (dev : Device) : Bool :=
  match dev.sinceReset with
  | none => true
  | some t => d.resetStartup ≤ t

/-- No conversion is still within its settle time. -/
def Device.idle (d : Config.Delays) (dev : Device) : Bool :=
  match dev.conversion with
  | none => true
  | some c => c.what.settle d ≤ c.waited

/-- Result byte i (0xF6 + i): the conversion's, once it has settled; otherwise any value (R306). After a
temperature conversion 0xF8 is any value: DEDUCED (log 24). -/
def Device.resultByte (d : Config.Delays) (dev : Device) (i : Nat) : DeviceRead :=
  match dev.conversion with
  | none => .anyValue
  | some c =>
    if c.what.settle d ≤ c.waited ∧ i < c.what.width then
      match c.bytes[i]? with
      | some b => .byte b
      | none => .anyValue
    else .anyValue

/-- A read of device register `r` (R54). Between a soft reset and the end of RESET_STARTUP_DELAY every register R54 names
for reading, calibration bytes 0xAA..0xBF included, gives any value: 91_not_in_source.md N7 finds no word on such a read
(DESIGN CHOICE, log 26). -/
def Device.read (d : Config.Delays) (dev : Device) (r : Byte) : DeviceRead :=
  if 0xAA ≤ r.toNat ∧ r.toNat ≤ 0xBF then
    if dev.started d then
      match dev.calibration[r.toNat - 0xAA]? with
      | some b => .byte b
      | none => .notNamed
    else .anyValue
  else if 0xF6 ≤ r.toNat ∧ r.toNat ≤ 0xF8 then
    if dev.started d then dev.resultByte d (r.toNat - 0xF6) else .anyValue
  else .notNamed

/-- Start a conversion. One started while another is still settling, or before the device has started up, leaves any
value (DESIGN CHOICE, log 16). -/
def Device.start (d : Config.Delays) (dev : Device) (m : Measurement) : Device :=
  { dev with
    conversion := some
      { what := m
        bytes := if dev.idle d ∧ dev.started d then dev.adc.headD [] else []
        waited := 0 }
    adc := dev.adc.tail }

/-- The conversion a value written to 0xF4 starts (30_encoding.md R86): 0x2E, or 0x34 + (oss << 6). -/
def controlCommand (v : Byte) : Option Measurement :=
  if v = 0x2E then some .temperature
  else if v.setWidth 6 = 0x34 then some (.pressure (v.extractLsb' 6 2))
  else none

/-- The control value that starts a pressure conversion at `oss`: 0x34 + (oss << 6) (R86). -/
def pressureCommand (oss : BitVec 2) : Byte := 0x34 + oss.setWidth 8 <<< 6

/-- Soft reset of the device (R54, R86): no conversion result remains defined (DESIGN CHOICE, log 17). -/
def Device.softReset (dev : Device) : Device := { dev with conversion := none, sinceReset := some 0 }

/-- A successful register write (20_memory.md R54): `none` where the protocol has no such write
(93_implementation_defined.md I15). -/
def Device.write (d : Config.Delays) (dev : Device) (r v : Byte) : Option Device :=
  if r = 0xF4 then (controlCommand v).map (dev.start d)
  else if r = 0xE0 ∧ v = 0xB6 then some dev.softReset
  else none

/-- A register write that failed on the bus: whether it reached the device is unknown, so no result byte is defined until
the next conversion (DESIGN CHOICE, log 12). -/
def Device.spoil (dev : Device) : Device := { dev with conversion := none }

/-- Time passes: the host waits n. -/
def Device.elapse (dev : Device) (n : Nat) : Device :=
  { dev with
    conversion := dev.conversion.map (fun c => { c with waited := c.waited + n })
    sinceReset := dev.sinceReset.map (· + n) }

end Sys2Proof.Machine
end

