-- ==== Sys2Proof/Machine/ReadPort.lean ====
section
/-! DEFINITION. The read port (20_memory.md R51 to R53, R57). A read is a function of the state, so it changes none and
cannot fault. -/

namespace Sys2Proof.Machine

/-- `ReadPort(a)`: the map of R52; every other address reads 0. -/
def State.readPort (s : State) (a : BitVec 8) : Word :=
  match a.toNat with
  | 0x00 => s.statusWord
  | 0x01 => s.loaded.setWidth 32
  | 0x02 => s.faultFirst.setWidth 32
  | 0x03 => s.faultMaskRead.setWidth 32
  | 0x04 => s.oss.setWidth 32
  | 0x05 => s.ut.setWidth 32
  | 0x06 => s.up
  | 0x07 => s.temp
  | 0x08 => s.pres.extractLsb' 0 32
  | 0x09 => s.pres.extractLsb' 32 32
  | 0x10 => s.cal[0].setWidth 32
  | 0x11 => s.cal[1].setWidth 32
  | 0x12 => s.cal[2].setWidth 32
  | 0x13 => s.cal[3].setWidth 32
  | 0x14 => s.cal[4].setWidth 32
  | 0x15 => s.cal[5].setWidth 32
  | 0x16 => s.cal[6].setWidth 32
  | 0x17 => s.cal[7].setWidth 32
  | 0x18 => s.cal[8].setWidth 32
  | 0x19 => s.cal[9].setWidth 32
  | 0x1A => s.cal[10].setWidth 32
  | _ => 0

/-- The 64-bit value the host forms from PRES_HI and PRES_LO (R57). -/
def State.readPres (s : State) : Long := s.readPort 0x09 ++ s.readPort 0x08

end Sys2Proof.Machine
end

