-- ==== Sys2Proof/Machine/Bus.lean ====
section
/-! DEFINITION. The block's environment: the host's bus channel (44_host_protocol.md R220 to R226), its moves on the block,
and what it records. None of it is state of the block (R3, 10_state.md R20; log 10). -/

namespace Sys2Proof.Machine

/-- What the environment decides of one bus step: it succeeds, fails (R225), or stalls for ever
(70_reset_and_hazards.md R313). -/
inductive BusFate where
  | ok
  | fail
  | stall
  deriving DecidableEq, Repr

/-- A wait of the host (00_scope.md R6). -/
inductive Delay where
  | registerTurnaround
  | settle (m : Measurement)
  | resetStartup
  deriving DecidableEq, Repr

/-- The minimum the wait asks for. -/
def Delay.amount (d : Config.Delays) : Delay → Nat
  | .registerTurnaround => d.registerTurnaround
  | .settle m => m.settle d
  | .resetStartup => d.resetStartup

/-- What the host does, as the trace records it. A bus event stands for an attempt, whatever its fate. -/
inductive Event where
  | openResource (path : List Char)
  | bindAddress (address : BitVec 7)
  | release
  | writePair (r v : Byte)
  | writeAddress (r : Byte)
  | readBack (r : Byte)
  | waited (what : Delay) (n : Nat)
  | issued (w : Word)
  | portRead (a : BitVec 8)
  deriving DecidableEq, Repr

/-- An open channel: "bound to exactly one address" (R220). No transfer reads which (DESIGN CHOICE, log 27). -/
structure Channel where
  path : List Char
  address : BitVec 7
  deriving DecidableEq, Repr

/-- The block in its environment. -/
structure World where
  block : State
  /-- none: fully closed. There is no partially open channel (R220). -/
  channel : Option Channel
  /-- driver.open (R231). -/
  driverOpen : Bool
  device : Device
  /-- The fates of the bus steps to come; where the list ends, every step succeeds (DESIGN CHOICE, log 11). -/
  script : List BusFate
  /-- Oldest first. -/
  trace : List Event
  /-- How many free device bytes have been read (log 14). -/
  nextFree : Nat
  deriving DecidableEq, Repr

/-- Power-on: block reset, channel and driver closed. -/
def World.powerOn (device : Device) (script : List BusFate) : World :=
  { block := State.reset, channel := none, driverOpen := false, device := device, script := script, trace := [],
    nextFree := 0 }

/-- How a host operation ends: it returns; it never does, because a bus read stalled (R313); or it asked of the device
something the protocol has not (93_implementation_defined.md I15; safe: no claim about what follows). -/
inductive HostRun (α : Type) where
  | returned (a : α) (w : World)
  | blocked (w : World)
  | refused (w : World)
  deriving DecidableEq, Repr

/-- Go on where an operation returned. -/
def HostRun.andThen {α β : Type} (m : HostRun α) (f : α → World → HostRun β) : HostRun β :=
  match m with
  | .returned a w => f a w
  | .blocked w => .blocked w
  | .refused w => .refused w

/-! ### The host's moves that are not bus steps -/

/-- Record an event. -/
def World.log (w : World) (e : Event) : World := { w with trace := w.trace ++ [e] }

/-- Wait at least a named delay: the wait is recorded, and that much time passes (R305; log 25). -/
def World.wait (d : Config.Delays) (w : World) (what : Delay) : World :=
  { w.log (.waited what (what.amount d)) with device := w.device.elapse (what.amount d) }

/-- `Issue(word)` (00_scope.md R10). -/
def World.issue (w : World) (word : Word) : World :=
  { w.log (.issued word) with block := Sys2Proof.Machine.issue word w.block }

/-- The world after the host's `ReadPort(a)`, whose value is `w.block.readPort a` (20_memory.md R51): the read is recorded
and the block does not change. -/
def World.notePortRead (w : World) (a : BitVec 8) : World := w.log (.portRead a)

/-! ### Bus steps -/

/-- One bus step: it is recorded, and the environment decides its fate. -/
def World.busStep (w : World) (e : Event) : BusFate × World :=
  (w.script.headD .ok, { w.log e with script := w.script.tail })

/-- `isOpened()` (R220). -/
def World.isOpened (w : World) : Bool := w.channel.isSome

/-- `close()` of the channel: idempotent (R220, R226). -/
def World.closeBus (w : World) : World :=
  match w.channel with
  | none => w
  | some _ => { w.log .release with channel := none }

/-- `open(path, address)` of the channel (R220): false, and closed, if the resource cannot be opened or the binding is
rejected; a resource opened before a rejected binding is released. A channel already open is first closed
(DESIGN CHOICE, log 18). -/
def World.openBus (w : World) (path : List Char) (address : BitVec 7) : HostRun Bool :=
  match w.closeBus.busStep (.openResource path) with
  | (.stall, w1) => .blocked w1
  | (.fail, w1) => .returned false w1
  | (.ok, w1) =>
    match w1.busStep (.bindAddress address) with
    | (.stall, w2) => .blocked w2
    | (.fail, w2) => .returned false (w2.log .release)
    | (.ok, w2) => .returned true { w2 with channel := some ⟨path, address⟩ }

/-- The byte a successful read back gives: the device's, or a free one (log 14). -/
def World.deviceByte (d : Config.Delays) (w : World) (r : Byte) : HostRun (Option Byte) :=
  match w.device.read d r with
  | .byte b => .returned (some b) w
  | .anyValue => .returned (some (Config.freeDeviceByte w.nextFree)) { w with nextFree := w.nextFree + 1 }
  | .notNamed => .refused w

/-- The byte read behind `readUInt8` and `readInt8` (R221): the address is written, the turnaround waited, the byte read
back. `none` is the flag false, with no value (R225). A closed channel fails and touches nothing (R226). On an open one
the sensor answers whatever path and address it is bound to (R240 lets any be given): DESIGN CHOICE, log 27. -/
def World.readByte (d : Config.Delays) (r : Byte) (w : World) : HostRun (Option Byte) :=
  match w.channel with
  | none => .returned none w
  | some _ =>
    match w.busStep (.writeAddress r) with
    | (.stall, w1) => .blocked w1
    | (.fail, w1) => .returned none w1
    | (.ok, w1) =>
      match (w1.wait d .registerTurnaround).busStep (.readBack r) with
      | (.stall, w2) => .blocked w2
      | (.fail, w2) => .returned none w2
      | (.ok, w2) => w2.deviceByte d r

/-- Bytes of consecutive registers from `r` on, each by the 8-bit primitive; the first failure aborts (R222, R223,
R225). -/
def World.readBytes (d : Config.Delays) : Nat → Byte → World → HostRun (Option (List Byte))
  | 0, _, w => .returned (some []) w
  | n + 1, r, w =>
    (w.readByte d r).andThen fun b w1 =>
      match b with
      | none => .returned none w1
      | some b0 =>
        (World.readBytes d n (r + 1) w1).andThen fun bs w2 => .returned (bs.map (b0 :: ·)) w2

/-- Big-endian composition of 8-bit reads (R222, R223): the first byte as `first` reads it, the others unsigned. -/
def composeBytes (first : Byte → Int) : List Byte → Int
  | [] => 0
  | b0 :: rest => rest.foldl (fun v b => v * 256 + zext b) (first b0)

/-- `readUInt8(r)`: 0..255 (R221). -/
def World.readUInt8 (d : Config.Delays) (r : Byte) (w : World) : HostRun (Option Int) :=
  (w.readBytes d 1 r).andThen fun bs w1 => .returned (bs.map (composeBytes zext)) w1

/-- `readInt8(r)`: -128..127 (R221). -/
def World.readInt8 (d : Config.Delays) (r : Byte) (w : World) : HostRun (Option Int) :=
  (w.readBytes d 1 r).andThen fun bs w1 => .returned (bs.map (composeBytes sext)) w1

/-- `readUInt16(r)` (R222). -/
def World.readUInt16 (d : Config.Delays) (r : Byte) (w : World) : HostRun (Option Int) :=
  (w.readBytes d 2 r).andThen fun bs w1 => .returned (bs.map (composeBytes zext)) w1

/-- `readInt16(r)` (R222). -/
def World.readInt16 (d : Config.Delays) (r : Byte) (w : World) : HostRun (Option Int) :=
  (w.readBytes d 2 r).andThen fun bs w1 => .returned (bs.map (composeBytes sext)) w1

/-- `readUInt24(r)` (R223). -/
def World.readUInt24 (d : Config.Delays) (r : Byte) (w : World) : HostRun (Option Int) :=
  (w.readBytes d 3 r).andThen fun bs w1 => .returned (bs.map (composeBytes zext)) w1

/-- `readInt24(r)` (R223). -/
def World.readInt24 (d : Config.Delays) (r : Byte) (w : World) : HostRun (Option Int) :=
  (w.readBytes d 3 r).andThen fun bs w1 => .returned (bs.map (composeBytes sext)) w1

/-- `writeUInt8(r, v)` = DevWrite(r, v) (R224): register address and value in one transaction. On an open channel it
reaches the sensor whatever path and address the channel is bound to (DESIGN CHOICE, log 27). -/
def World.writeUInt8 (d : Config.Delays) (r v : Byte) (w : World) : HostRun Bool :=
  match w.channel with
  | none => .returned false w
  | some _ =>
    match w.busStep (.writePair r v) with
    | (.stall, w1) => .blocked w1
    | (.fail, w1) => .returned false { w1 with device := w1.device.spoil }
    | (.ok, w1) =>
      match w1.device.write d r v with
      | some dev => .returned true { w1 with device := dev }
      | none => .refused w1

end Sys2Proof.Machine
end

