-- ==== Sys2Proof/Machine/Driver.lean ====
section
/-! DEFINITION. The driver's operations as sequences of device transactions and command words
(44_host_protocol.md R227 to R234, R241). -/

namespace Sys2Proof.Machine

/-- The driver's states (R227); the source's "ambiguous state" is `openUncalibrated`, made exact by LOADED. -/
inductive DriverState where
  | closed
  | openUncalibrated
  | calibrated
  deriving DecidableEq, Repr

/-- The driver's state in a world (R227). -/
def World.driverState (w : World) : DriverState :=
  if w.driverOpen = false then .closed else if w.block.calValid then .calibrated else .openUncalibrated

/-- Byte i of a number read from the device, as the macros write v[8i+7 : 8i]. -/
def byteOf (v : Int) (i : Nat) : Byte := BitVec.ofInt 8 (v / 256 ^ i)

/-- The calibration reads of LOADCAL for the listed coefficients (R231): one CALW for each 16-bit read that succeeded. -/
def World.loadCalFrom (d : Config.Delays) : List Nat → Bool → World → HostRun Bool
  | [], ok, w => .returned ok w
  | k :: ks, ok, w =>
    (w.readUInt16 d (BitVec.ofNat 8 (0xAA + 2 * k))).andThen fun v w1 =>
      match v with
      | some x => World.loadCalFrom d ks ok (w1.issue (encode (.calw (BitVec.ofNat 4 k) (byteOf x 1) (byteOf x 0))))
      | none => World.loadCalFrom d ks false w1

/-- LOADCAL (R231), k = 0..10: the CALCLR of the ruling R231 cites (92_eei_decisions.md D32; log 19), then one CALW for each
read that succeeded. -/
def World.loadCal (d : Config.Delays) (w : World) : HostRun Bool :=
  World.loadCalFrom d (List.range 11) true (w.issue (encode .calclr))

/-- OPEN(path, address) (R231). Where the bus does not open, a closed driver stays closed (R227); a driver that was open
stays open over the closed channel, of which the spec does not speak (DESIGN CHOICE, log 28). -/
def World.openDriver (d : Config.Delays) (path : List Char) (address : BitVec 7) (w : World) : HostRun Bool :=
  (w.openBus path address).andThen fun ok w1 =>
    if ok then
      (World.loadCal d (w1.issue (encode .srst))).andThen fun _ w2 => .returned true { w2 with driverOpen := true }
    else .returned false w1

/-- RESET (R232). -/
def World.resetDevice (d : Config.Delays) (w : World) : HostRun Bool :=
  if w.driverOpen = false then .returned false w
  else
    (w.writeUInt8 d 0xE0 0xB6).andThen fun ok w1 =>
      (World.loadCal d ((w1.issue (encode .srst)).wait d .resetStartup)).andThen fun calok w2 =>
        .returned (ok && calok) w2

/-- CLOSE (R241): no command to the block. -/
def World.closeDriver (w : World) : World := { w.closeBus with driverOpen := false }

/-- Trigger a conversion, wait its settle time, read `n` result bytes from 0xF6 (R228, R229): `none` if any step fails,
and after a failed trigger nothing is read (R233). -/
def World.convert (d : Config.Delays) (m : Measurement) (w : World) : HostRun (Option Int) :=
  let command : Byte := match m with
    | .temperature => 0x2E
    | .pressure oss => pressureCommand oss
  (w.writeUInt8 d 0xF4 command).andThen fun ok w1 =>
    if ok then
      match m with
      | .temperature => World.readUInt16 d 0xF6 (w1.wait d (.settle m))
      | .pressure _ => World.readUInt24 d 0xF6 (w1.wait d (.settle m))
    else .returned none w1

/-- READT (R233). -/
def World.readTemperature (d : Config.Delays) (w : World) : HostRun Reading :=
  if w.driverOpen = false then .returned .nan w
  else
    (w.convert d .temperature).andThen fun v w1 =>
      match v with
      | none => .returned .nan w1
      | some x =>
        let w2 := (w1.issue (encode (.ldut (byteOf x 1) (byteOf x 0)))).issue (encode .cmpt)
        let w3 := w2.notePortRead 0x00
        if (w2.block.readPort 0x00).getLsbD 3 then
          .returned (tempToC (sext (w3.block.readPort 0x07))) (w3.notePortRead 0x07)
        else .returned .nan w3

/-- READP (R234), at oss = 0 as the source's driver fixes it. -/
def World.readPressure (d : Config.Delays) (w : World) : HostRun Reading :=
  if w.driverOpen = false then .returned .nan w
  else
    (w.convert d .temperature).andThen fun v w1 =>
      match v with
      | none => .returned .nan w1
      | some x =>
        ((w1.issue (encode (.ldut (byteOf x 1) (byteOf x 0)))).convert d (.pressure 0)).andThen fun r w2 =>
          match r with
          | none => .returned .nan w2
          | some y =>
            let w3 := (w2.issue (encode (.ldup (byteOf y 2) (byteOf y 1) (byteOf y 0)))).issue (encode .cmpp)
            let w4 := w3.notePortRead 0x00
            if (w3.block.readPort 0x00).getLsbD 4 then
              .returned (presToPa w4.block.readPres) ((w4.notePortRead 0x09).notePortRead 0x08)
            else .returned .nan w4

end Sys2Proof.Machine
end

