-- ==== Sys2Proof/Machine/FixedWidth.lean ====
section
/-! DEFINITION. The same stages at the widths the spec gives them: every signed intermediate a 64-bit two's-complement
pattern that wraps (42_compensation.md R140, S64), every unsigned one a U32 (R141). R140 says that no S64 operation ever
wraps, so that this form and the integer form of Machine/Compensation.lean give one result; that is a statement to prove,
not an assumption. CMPT and CMPP use the integer form. -/

namespace Sys2Proof.Machine

/-- A signed 64-bit intermediate. -/
abbrev S64 := BitVec 64

/-- The S64 of a number. -/
def toS64 (x : Int) : S64 := BitVec.ofInt 64 x

/-- The arithmetic shift on S64. -/
def asr64 (x : S64) (n : Nat) : S64 := x.sshiftRight n

/-- Truncating division on S64. -/
def tdiv64 (a b : S64) : S64 := a.sdiv b

/-- S64 to U32: the low 32 bits (R141). -/
def low32 (x : S64) : Word := x.setWidth 32

/-- U32 to S64: zero extension (R141). -/
def zext64 (u : Word) : S64 := u.setWidth 64

/-- A coefficient as an S64: sign- or zero-extended by its signedness (10_state.md R22). -/
def coeff64 (k : Nat) (v : Half) : S64 := if coeffSigned k then v.signExtend 64 else v.setWidth 64

/-- R143 to R145 on S64. -/
def b5Wide (cal : Vector Half 11) (ut : Half) : Except FaultCode S64 :=
  let ac5 := coeff64 4 cal[4]
  let ac6 := coeff64 5 cal[5]
  let mc := coeff64 9 cal[9]
  let md := coeff64 10 cal[10]
  let x1 := asr64 ((ut.setWidth 64 - ac6) * ac5) 15
  let den := x1 + md
  if den = 0 then .error .divZeroTemp else .ok (x1 + tdiv64 (mc <<< 11) den)

/-- R143 to R146 at the spec's widths: TEMP's pattern. -/
def tempWide (cal : Vector Half 11) (ut : Half) : Except FaultCode Word :=
  match b5Wide cal ut with
  | .error e => .error e
  | .ok b5 => .ok (low32 (asr64 (b5 + 8) 4))

/-- R147 to R155 at the spec's widths, from b5: PRES's pattern. -/
def presFromB5Wide (cal : Vector Half 11) (b5 : S64) (up : Word) (oss : BitVec 2) : Except FaultCode S64 :=
  let ac1 := coeff64 0 cal[0]
  let ac2 := coeff64 1 cal[1]
  let ac3 := coeff64 2 cal[2]
  let ac4 := coeff64 3 cal[3]
  let b1 := coeff64 6 cal[6]
  let b2 := coeff64 7 cal[7]
  let b6 := b5 - 4000
  let sq := asr64 (b6 * b6) 12
  let x3 := asr64 (b2 * sq) 11 + asr64 (ac2 * b6) 11
  let b3 := tdiv64 (((ac1 * 4 + x3) <<< oss.toNat) + 2) 4
  let x3p := asr64 (asr64 (ac3 * b6) 13 + asr64 (b1 * sq) 16 + 2) 2
  let b4 := lsr (low32 ac4 * low32 (x3p + 32768)) 15
  if b4 = 0 then .error .divZeroPres
  else
    let b7 := low32 (zext64 up - b3) * ossFactor oss
    let p := zext64 (stagePq b7 b4)
    let x1 := asr64 (asr64 p 8 * asr64 p 8 * 3038) 16
    let x2 := asr64 (-7357 * p) 16
    .ok (p + asr64 (x1 + x2 + 3791) 4)

/-- R143 to R145, R147 to R155 at the spec's widths. -/
def presWide (cal : Vector Half 11) (ut : Half) (up : Word) (oss : BitVec 2) : Except FaultCode S64 :=
  match b5Wide cal ut with
  | .error e => .error e
  | .ok b5 => presFromB5Wide cal b5 up oss

end Sys2Proof.Machine
end

