-- ==== Sys2Proof/Safety.lean ====
section
/-! DEFINITION. The terms claims are stated in: the invariant of a run, and which fault a word raises. -/

namespace Sys2Proof.Machine

/-- What every state of a run satisfies. -/
structure State.Inv (s : State) : Prop where
  /-- FAULT_FIRST's legal values are 0..6 (10_state.md R30). -/
  first_legal : s.faultFirst.toNat ≤ 6
  /-- FAULT_MASK bit 0 is 0 (R31). -/
  mask_bit0 : s.faultMask.getLsbD 0 = false
  /-- No fault was first: no fault is recorded (60_exceptions.md R261). -/
  mask_of_none : s.faultFirst = 0 → s.faultMask = 0
  /-- The first fault's bit is set (R261). -/
  mask_of_first : s.faultFirst ≠ 0 → s.faultMask.getLsbD s.faultFirst.toNat = true
  /-- Only bits 18:0 of UP can be nonzero (20_memory.md R52). -/
  up_width : s.up.toNat < 2 ^ 19
  /-- A usable UP is below 2^(16 + OSS) (10_state.md R27; log 7). -/
  up_aligned : s.upValid = true → s.up.toNat < 2 ^ (16 + s.oss.toNat)
  /-- TEMP is within the bound of T10 (42_compensation.md R140). -/
  temp_bound : -4202496 ≤ s.temp.toInt ∧ s.temp.toInt ≤ 4202496
  /-- PRES is within the bound of pressure_pa (R140). -/
  pres_bound : -30134036 ≤ s.pres.toInt ∧ s.pres.toInt ≤ 819801785643

/-- Every field of 10_state.md R20 is zero: the table of R36. -/
def State.AllZero (s : State) : Prop :=
  (∀ k : Fin 11, s.cal[k] = 0) ∧ s.loaded = 0 ∧ s.oss = 0 ∧ s.ut = 0 ∧ s.utValid = false ∧ s.up = 0 ∧
    s.upValid = false ∧ s.temp = 0 ∧ s.tValid = false ∧ s.pres = 0 ∧ s.pValid = false ∧ s.faultFirst = 0 ∧
    s.faultMask = 0

/-- The fault a word raises in a state, if any (60_exceptions.md R260). -/
def faultOf (w : Word) (s : State) : Option FaultCode :=
  match decode w with
  | .error _ => some .illegalCommand
  | .ok .cmpt => match s.cmptOutcome with
    | .error c => some c
    | .ok _ => none
  | .ok .cmpp => match s.cmppOutcome with
    | .error c => some c
    | .ok _ => none
  | .ok _ => none

/-- The codes a sequence of words raises, in order. -/
def codesOf : List Word → State → List FaultCode
  | [], _ => []
  | w :: ws, s => (faultOf w s).toList ++ codesOf ws (issue w s)

/-- The word is CALW for coefficient `k`. -/
def IsCalw (k : BitVec 4) (w : Word) : Prop := ∃ msb lsb, decode w = .ok (.calw k msb lsb)

/-- The word clears LOADED: CALCLR or SRST (10_state.md R23). -/
def ClearsLoaded (w : Word) : Prop := decode w = .ok .calclr ∨ decode w = .ok .srst

/-- The causes of 60_exceptions.md R260 that apply to a CMPT. -/
def cmptCause (s : State) : FaultCode → Prop
  | .illegalCommand => False
  | .calNotLoaded => s.loaded ≠ 0x7FF
  | .utNotLoaded => s.utValid = false
  | .upNotLoaded => False
  | .divZeroTemp => stageDen (coeffs s.cal) (zext s.ut) = 0
  | .divZeroPres => False

/-- The causes of R260 that apply to a CMPP. b4 exists only where b5 does (42_compensation.md R158). -/
def cmppCause (s : State) : FaultCode → Prop
  | .illegalCommand => False
  | .calNotLoaded => s.loaded ≠ 0x7FF
  | .utNotLoaded => s.utValid = false
  | .upNotLoaded => s.upValid = false
  | .divZeroTemp => stageDen (coeffs s.cal) (zext s.ut) = 0
  | .divZeroPres => ∃ b5, stageB5 (coeffs s.cal) (zext s.ut) = .ok b5 ∧ stageB4 (coeffs s.cal) (stageB6 b5) = 0

/-- Register `r` reads `b` now and at any later time. -/
def Device.Reads (d : Config.Delays) (dev : Device) (r b : Byte) : Prop := ∀ n, (dev.elapse n).read d r = .byte b

/-- The command words a trace records, in order. -/
def issuedWords : List Event → List Word
  | [] => []
  | .issued w :: es => w :: issuedWords es
  | _ :: es => issuedWords es

/-- The world as the successful-path claims want it: channel and driver open, every bus step to succeed, the device idle
and started. The channel may be bound to any path and address, the sensor answers (log 27). -/
def World.Ready (d : Config.Delays) (w : World) : Prop :=
  w.channel.isSome = true ∧ w.driverOpen = true ∧ w.script = [] ∧ w.device.idle d = true ∧ w.device.started d = true

end Sys2Proof.Machine
end

