-- ==== Sys2Proof/Certificates/Slice0/Obligations.lean ====
section
/-! DEFINITION. The statements for the provers. Where a statement writes `next { s with ... }`, that is the whole next
state: the named fields take the values given and every other field is unchanged. -/

open Sys2Proof Sys2Proof.Machine

/-! ### Reset, status and the read port -/

/-- 10_state.md R36, 70_reset_and_hazards.md R301: reset leaves every field 0, on SRST and on the reset input alike; the
read port then reads 0 everywhere, and a CMPT or CMPP issued then records CAL_NOT_LOADED. -/
def Obligations.ResetLeavesEveryFieldZero : Prop :=
  State.reset.AllZero ∧
  (∀ s t : State, (exec .srst s = .next t ∨ applyInput .reset s = .next t ∨ t = State.reset) →
    t.AllZero ∧ (∀ a, t.readPort a = 0) ∧
    exec .cmpt t = .next { t with faultFirst := 2, faultMask := 0x04 } ∧
    exec .cmpp t = .next { t with faultFirst := 2, faultMask := 0x04 })

/-- 10_state.md R32, R24: each bit of STATUS, computed from the state. -/
def Obligations.StatusWordShowsTheBits : Prop :=
  ∀ s : State,
    (s.readPort 0x00).getLsbD 0 = decide (s.loaded = 0x7FF) ∧
    (s.readPort 0x00).getLsbD 1 = s.utValid ∧
    (s.readPort 0x00).getLsbD 2 = s.upValid ∧
    (s.readPort 0x00).getLsbD 3 = s.tValid ∧
    (s.readPort 0x00).getLsbD 4 = s.pValid ∧
    (s.readPort 0x00).getLsbD 5 = decide (s.faultFirst ≠ 0) ∧
    (s.readPort 0x00).extractLsb' 6 2 = s.oss ∧
    ∀ n, 8 ≤ n → (s.readPort 0x00).getLsbD n = false

/-- 20_memory.md R52, R53: the read-port map, in numbers; unmapped addresses read 0; FAULT_MASK reads with bit 0
zero in every state; in every state of the invariant it reads as stored and only bits 18:0 of UP can be nonzero. -/
def Obligations.ReadPortMap : Prop :=
  ∀ s : State,
    (s.readPort 0x00 = s.statusWord ∧ (s.readPort 0x00).toNat < 2 ^ 8) ∧
    (s.readPort 0x01).toNat = s.loaded.toNat ∧
    (s.readPort 0x02).toNat = s.faultFirst.toNat ∧
    (s.readPort 0x03).toNat = s.faultMask.toNat / 2 * 2 ∧
    (s.Inv → (s.readPort 0x03).toNat = s.faultMask.toNat) ∧
    (s.readPort 0x04).toNat = s.oss.toNat ∧
    (s.readPort 0x05).toNat = s.ut.toNat ∧
    s.readPort 0x06 = s.up ∧
    (s.Inv → ∀ n, 19 ≤ n → (s.readPort 0x06).getLsbD n = false) ∧
    s.readPort 0x07 = s.temp ∧
    (s.readPort 0x08).toNat = s.pres.toNat % 2 ^ 32 ∧
    (s.readPort 0x09).toNat = s.pres.toNat / 2 ^ 32 ∧
    (∀ k : Fin 11, (s.readPort (BitVec.ofNat 8 (0x10 + k.val))).toNat = s.cal[k].toNat) ∧
    ∀ a : BitVec 8, (0x09 < a.toNat ∧ a.toNat < 0x10) ∨ 0x1A < a.toNat → s.readPort a = 0

/-- 20_memory.md R57: the host forms the S64 pressure from the two halves. -/
def Obligations.PressureFromTwoHalves : Prop :=
  ∀ s : State, s.readPres = s.pres ∧
    s.readPres.toNat = (s.readPort 0x09).toNat * 2 ^ 32 + (s.readPort 0x08).toNat

/-- 60_exceptions.md R274: the read port shows all architectural state. Two states of the invariant that read alike at
every address differ at most in what the host has still to issue. -/
def Obligations.ReadPortShowsAllState : Prop :=
  ∀ s t : State, s.Inv → t.Inv → (∀ a, s.readPort a = t.readPort a) → { s with inputs := t.inputs } = t

/-! ### Encoding -/

/-- Sample words of 95_test_vectors.md V-G, one of each command and some illegal ones. -/
def Obligations.SampleWordsDecode : Prop :=
  decode 0x10000198 = .ok (.calw 0 0x01 0x98) ∧ decode 0x1A000B34 = .ok (.calw 10 0x0B 0x34) ∧
  decode 0x20000000 = .ok .calclr ∧ decode 0x33000000 = .ok (.setoss 3) ∧
  decode 0x40006CFA = .ok (.ldut 0x6C 0xFA) ∧ decode 0x505D2300 = .ok (.ldup 0x5D 0x23 0x00) ∧
  decode 0x60000000 = .ok .cmpt ∧ decode 0x70000000 = .ok .cmpp ∧ decode 0xF00000B6 = .ok .srst ∧
  decode 0x00000000 = .error .unknownOpcode ∧ decode 0x1B000000 = .error .calIndex ∧
  decode 0x10010000 = .error .reservedField ∧ decode 0x20000001 = .error .reservedField ∧
  decode 0xF00000B7 = .error .resetKey

/-- Decoding the word of a well-formed command gives the command back, with every operand. -/
def Obligations.DecodeOfEncode : Prop := ∀ i : Instr, i.WellFormed → decode (encode i) = .ok i

/-- Each legal word is the word of one well-formed command, so no bit of a word is ignored. -/
def Obligations.EncodeOfDecode : Prop :=
  ∀ (w : Word) (i : Instr), decode w = .ok i → i.WellFormed ∧ encode i = w

/-- 30_encoding.md R83, on the numbers of the fields: for every word the decoder gives a command exactly where R83's case
does, and ILLEGAL otherwise. -/
def Obligations.DecodeFunctionOnFields : Prop :=
  ∀ w : Word,
    let n := w.toNat
    let op := n / 2 ^ 28
    let sel := n / 2 ^ 24 % 16
    let d2 := n / 2 ^ 16 % 256
    let d1 := n / 2 ^ 8 % 256
    let d0 := n % 256
    (∀ k msb lsb, decode w = .ok (.calw k msb lsb) ↔
      op = 1 ∧ sel ≤ 10 ∧ d2 = 0 ∧ k.toNat = sel ∧ msb.toNat = d1 ∧ lsb.toNat = d0) ∧
    (decode w = .ok .calclr ↔ n = 0x20000000) ∧
    (∀ o, decode w = .ok (.setoss o) ↔ op = 3 ∧ sel / 4 = 0 ∧ n % 2 ^ 24 = 0 ∧ o.toNat = sel % 4) ∧
    (∀ msb lsb, decode w = .ok (.ldut msb lsb) ↔
      op = 4 ∧ sel = 0 ∧ d2 = 0 ∧ msb.toNat = d1 ∧ lsb.toNat = d0) ∧
    (∀ msb lsb xlsb, decode w = .ok (.ldup msb lsb xlsb) ↔
      op = 5 ∧ sel = 0 ∧ msb.toNat = d2 ∧ lsb.toNat = d1 ∧ xlsb.toNat = d0) ∧
    (decode w = .ok .cmpt ↔ n = 0x60000000) ∧
    (decode w = .ok .cmpp ↔ n = 0x70000000) ∧
    (decode w = .ok .srst ↔ n = 0xF00000B6)

/-- 30_encoding.md R82: exactly one row of the table matches a legal word, the row of the command it decodes to, and none
matches an illegal one. -/
def Obligations.LegalWordMatchesExactlyOneRow : Prop :=
  ∀ w : Word,
    match decode w with
    | .ok i => ∃ r, opcodeRows.filter (fun r => r.matches w) = [r] ∧ r.mnemonic = i.mnemonic
    | .error _ => opcodeRows.filter (fun r => r.matches w) = []

/-- 30_encoding.md R84: which words are illegal, and that performing one raises ILLEGAL_COMMAND and changes nothing else. -/
def Obligations.IllegalWordOnlyRecordsTheFault : Prop :=
  (∀ (w : Word) (e : Illegal) (s : State), decode w = .error e →
    perform w s = .next { s with
      faultMask := s.faultMask ||| 0x02, faultFirst := if s.faultFirst = 0 then 1 else s.faultFirst }) ∧
  (∀ w : Word, fieldOp w = 0 ∨ (8 ≤ (fieldOp w).toNat ∧ (fieldOp w).toNat ≤ 14) → ∃ e, decode w = .error e) ∧
  (∀ w : Word, fieldOp w = 1 → 11 ≤ (fieldSel w).toNat ∨ fieldD2 w ≠ 0 → ∃ e, decode w = .error e) ∧
  (∀ w : Word, fieldOp w = 2 ∨ fieldOp w = 6 ∨ fieldOp w = 7 → w.extractLsb' 0 28 ≠ 0 → ∃ e, decode w = .error e) ∧
  (∀ w : Word, fieldOp w = 3 → 4 ≤ (fieldSel w).toNat ∨ w.extractLsb' 0 24 ≠ 0 → ∃ e, decode w = .error e) ∧
  (∀ w : Word, fieldOp w = 4 → fieldSel w ≠ 0 ∨ fieldD2 w ≠ 0 → ∃ e, decode w = .error e) ∧
  (∀ w : Word, fieldOp w = 5 → fieldSel w ≠ 0 → ∃ e, decode w = .error e) ∧
  (∀ w : Word, fieldOp w = 15 → w ≠ 0xF00000B6 → ∃ e, decode w = .error e) ∧
  ∃ e, decode 0 = .error e

/-! ### One step, and runs -/

/-- A step performs the host's next move: a word that decodes runs its command, an illegal word records ILLEGAL_COMMAND,
the reset input resets, and with no move the block waits. The queue and the waiting step are the model's (log 1, log 3). -/
def Obligations.StepPerformsTheNextMove : Prop :=
  ∀ (s : State) (rest : List Input),
    (∀ w i, s.inputs = .command w :: rest → decode w = .ok i → step s = exec i { s with inputs := rest }) ∧
    (∀ w e, s.inputs = .command w :: rest → decode w = .error e →
      step s = .next (raiseFault .illegalCommand { s with inputs := rest })) ∧
    (s.inputs = .reset :: rest → step s = .next { State.reset with inputs := rest }) ∧
    (s.inputs = [] → step s = .next s)

/-- 60_exceptions.md R263: nothing stops the block; every step answers a next state. -/
def Obligations.StepNeverStops : Prop := ∀ s : State, ∃ t, step s = .next t

/-- 20_memory.md R60: words waiting at the port are performed one at a time in issue order; n steps on a queue of n words
are the n words issued one after the other, whatever state the block starts in. -/
def Obligations.QueueRunIsIssueInOrder : Prop :=
  ∀ (ws : List Word) (s : State),
    Host.Core.run Sys2Proof.core ws.length { s with inputs := ws.map Input.command } =
      .next (issueAll ws { s with inputs := [] })

/-! ### The commands: next state and frame -/

/-- CALW (40_calibration.md R100): its words, any other with OP = 1 being illegal; and that it answers a state in which
CAL[k] is {D1, D0}, LOADED bit k is 1, and all else is unchanged; STATUS.CAL_VALID becomes 1 when it sets the last clear bit. -/
def Obligations.CalwWritesOneCoefficient : Prop :=
  (∀ w : Word, fieldOp w = 1 → (∃ k msb lsb, decode w = .ok (.calw k msb lsb)) ∨ ∃ e, decode w = .error e) ∧
  ∀ (k : BitVec 4) (msb lsb : Byte),
    (∀ w : Word, decode w = .ok (.calw k msb lsb) ↔
      k.toNat ≤ 10 ∧ w.toNat = 0x10000000 + k.toNat * 2 ^ 24 + msb.toNat * 2 ^ 8 + lsb.toNat) ∧
    ∀ s : State, k.toNat ≤ 10 →
      ∃ t, exec (.calw k msb lsb) s = .next t ∧
        (∀ j : Fin 11, t.cal[j].toNat = if j.val = k.toNat then msb.toNat * 256 + lsb.toNat else s.cal[j].toNat) ∧
        (∀ j : Fin 11, t.loaded.getLsbD j.val = (s.loaded.getLsbD j.val || decide (j.val = k.toNat))) ∧
        { t with cal := s.cal, loaded := s.loaded } = s ∧
        ((∀ j : Fin 11, j.val ≠ k.toNat → s.loaded.getLsbD j.val = true) → (t.readPort 0x00).getLsbD 0 = true)

/-- The model's choice (log 4), no rule of the spec: a CALW term with k = 11..15, which no word decodes to, takes
ILLEGAL_COMMAND. -/
def Obligations.UnencodableCalwTakesTheFault : Prop :=
  ∀ (k : BitVec 4) (msb lsb : Byte) (s : State), 10 < k.toNat →
    exec (.calw k msb lsb) s = .next { s with
      faultMask := s.faultMask ||| 0x02, faultFirst := if s.faultFirst = 0 then 1 else s.faultFirst } ∧
    ∀ w : Word, decode w ≠ .ok (.calw k msb lsb)

/-- CALCLR (R101): its one word; LOADED <- 0, nothing else; and until all eleven coefficients have been written again, a
CMPT or CMPP records CAL_NOT_LOADED. -/
def Obligations.CalclrClearsLoadedOnly : Prop :=
  (∀ w : Word, decode w = .ok .calclr ↔ w = 0x20000000) ∧
  (∀ w : Word, fieldOp w = 2 → w ≠ 0x20000000 → ∃ e, decode w = .error e) ∧
  ∀ s : State, exec .calclr s = .next { s with loaded := 0 } ∧
    ∀ (ws : List Word) (k : Fin 11), (∀ w ∈ ws, ¬ IsCalw (BitVec.ofNat 4 k.val) w) →
      let t := issueAll ws { s with loaded := 0 }
      exec .cmpt t = .next (faultCmpt .calNotLoaded t) ∧ exec .cmpp t = .next (faultCmpp .calNotLoaded t)

/-- SETOSS (41_input.md R120): its four words, any other with OP = 3 being illegal; OSS <- o and
UP_VALID <- 0, also where o is the old OSS; nothing else. -/
def Obligations.SetossSetsOssAndDropsUp : Prop :=
  (∀ w : Word, fieldOp w = 3 → (∃ o, decode w = .ok (.setoss o)) ∨ ∃ e, decode w = .error e) ∧
  ∀ o : BitVec 2,
    (∀ w : Word, decode w = .ok (.setoss o) ↔ w.toNat = 0x30000000 + o.toNat * 2 ^ 24) ∧
    ∀ s : State, exec (.setoss o) s = .next { s with oss := o, upValid := false } ∧
      ({ s with oss := o, upValid := false }.readPort 0x00).extractLsb' 6 2 = o

/-- LDUT (R121): its words, any other with OP = 4 being illegal; UT <- D1 * 256 + D0 unsigned, UT_VALID <- 1; nothing
else. -/
def Obligations.LdutLatchesTheReading : Prop :=
  (∀ w : Word, fieldOp w = 4 → (∃ msb lsb, decode w = .ok (.ldut msb lsb)) ∨ ∃ e, decode w = .error e) ∧
  ∀ msb lsb : Byte,
    (∀ w : Word, decode w = .ok (.ldut msb lsb) ↔ w.toNat = 0x40000000 + msb.toNat * 2 ^ 8 + lsb.toNat) ∧
    ∀ s : State, ∃ t, exec (.ldut msb lsb) s = .next t ∧ t.ut.toNat = msb.toNat * 256 + lsb.toNat ∧ t.utValid = true ∧
      { t with ut := s.ut, utValid := s.utValid } = s

/-- LDUP (R122): its words, any other with OP = 5 being illegal; UP <- (D2 * 65536 + D1 * 256 + D0) >> (8 - OSS) with the
OSS held, below 2^(16 + OSS); UP_VALID <- 1; nothing else. At OSS 0 the third byte has no effect; and a SETOSS after it clears UP_VALID. -/
def Obligations.LdupAlignsTheReading : Prop :=
  (∀ w : Word, fieldOp w = 5 → (∃ msb lsb xlsb, decode w = .ok (.ldup msb lsb xlsb)) ∨ ∃ e, decode w = .error e) ∧
  ∀ msb lsb xlsb : Byte,
    (∀ w : Word, decode w = .ok (.ldup msb lsb xlsb) ↔
      w.toNat = 0x50000000 + msb.toNat * 2 ^ 16 + lsb.toNat * 2 ^ 8 + xlsb.toNat) ∧
    ∀ s : State,
      (∃ t, exec (.ldup msb lsb xlsb) s = .next t ∧
        t.up.toNat = (msb.toNat * 65536 + lsb.toNat * 256 + xlsb.toNat) / 2 ^ (8 - s.oss.toNat) ∧
        t.up.toNat < 2 ^ (16 + s.oss.toNat) ∧ t.upValid = true ∧ { t with up := s.up, upValid := s.upValid } = s ∧
        ∀ o : BitVec 2, ∃ t', exec (.setoss o) t = .next t' ∧ t'.upValid = false) ∧
      (s.oss = 0 → ∀ x : Byte, exec (.ldup msb lsb x) s = exec (.ldup msb lsb xlsb) s)

/-- SRST (43_control.md R200): every field of R20 is reset and STATUS then reads 0; its one word is 0xF00000B6, any
other word with OP = 0xF resets nothing, and no other word clears a fault register. -/
def Obligations.SrstResetsTheBlock : Prop :=
  (∀ s : State, ∃ t, exec .srst s = .next t ∧ t.AllZero ∧ t.readPort 0x00 = 0) ∧
  (∀ w : Word, decode w = .ok .srst ↔ w = 0xF00000B6) ∧
  (∀ (w : Word) (s : State), fieldOp w = 0xF → w ≠ 0xF00000B6 →
    perform w s = .next (raiseFault .illegalCommand s)) ∧
  ∀ (w : Word) (s : State), w ≠ 0xF00000B6 →
    (s.faultFirst ≠ 0 → (issue w s).faultFirst ≠ 0) ∧ (s.faultMask ≠ 0 → (issue w s).faultMask ≠ 0)

/-- CMPT (42_compensation.md R156, with the stages of R143 to R146). With all coefficients loaded, a fresh UT and a nonzero
divisor, TEMP is the S32 pattern of T10, T_VALID <- 1, UT_VALID <- 0, and nothing else changes; the formulas are on integers,
with floor and truncating division. Otherwise it takes the first fault that applies: T_VALID <- 0, the fault registers, and
nothing else. Its one word is 0x60000000. -/
def Obligations.CmptComputesOrFaults : Prop :=
  (∀ w : Word, decode w = .ok .cmpt ↔ w = 0x60000000) ∧
  ∀ s : State,
    let ac5 := (s.cal[4].toNat : Int)
    let ac6 := (s.cal[5].toNat : Int)
    let mc := s.cal[9].toInt
    let md := s.cal[10].toInt
    let x1 := Int.fdiv (((s.ut.toNat : Int) - ac6) * ac5) 32768
    let b5 := x1 + Int.tdiv (mc * 2048) (x1 + md)
    let t10 := Int.fdiv (b5 + 8) 16
    (s.loaded = 0x7FF → s.utValid = true → x1 + md ≠ 0 →
      ∃ t, exec .cmpt s = .next t ∧ t.temp.toInt = t10 ∧ t.tValid = true ∧ t.utValid = false ∧
        { t with temp := s.temp, tValid := s.tValid, utValid := s.utValid } = s) ∧
    (s.loaded ≠ 0x7FF →
      exec .cmpt s = .next { s with
        tValid := false, faultMask := s.faultMask ||| 0x04,
        faultFirst := if s.faultFirst = 0 then 2 else s.faultFirst }) ∧
    (s.loaded = 0x7FF → s.utValid = false →
      exec .cmpt s = .next { s with
        tValid := false, faultMask := s.faultMask ||| 0x08,
        faultFirst := if s.faultFirst = 0 then 3 else s.faultFirst }) ∧
    (s.loaded = 0x7FF → s.utValid = true → x1 + md = 0 →
      exec .cmpt s = .next { s with
        tValid := false, faultMask := s.faultMask ||| 0x20,
        faultFirst := if s.faultFirst = 0 then 5 else s.faultFirst })

/-- CMPP (R157, with the stages of R143 to R145 and R147 to R155). With all coefficients loaded, fresh UT and UP and both
divisors nonzero, PRES is the S64 pattern of P, P_VALID <- 1, UT_VALID and UP_VALID <- 0, and nothing else changes; the
formulas are on integers, with floor and truncating division, and reduction modulo 2^32 where the rules write u32. Otherwise
it takes the first fault that applies: P_VALID <- 0, the fault registers, and nothing else. Its one word is 0x70000000. -/
def Obligations.CmppComputesOrFaults : Prop :=
  (∀ w : Word, decode w = .ok .cmpp ↔ w = 0x70000000) ∧
  ∀ s : State,
    let ac1 := s.cal[0].toInt
    let ac2 := s.cal[1].toInt
    let ac3 := s.cal[2].toInt
    let ac4 := (s.cal[3].toNat : Int)
    let ac5 := (s.cal[4].toNat : Int)
    let ac6 := (s.cal[5].toNat : Int)
    let b1 := s.cal[6].toInt
    let b2 := s.cal[7].toInt
    let mc := s.cal[9].toInt
    let md := s.cal[10].toInt
    let x1 := Int.fdiv (((s.ut.toNat : Int) - ac6) * ac5) 32768
    let b5 := x1 + Int.tdiv (mc * 2048) (x1 + md)
    let b6 := b5 - 4000
    let sq := Int.fdiv (b6 * b6) 4096
    let x3 := Int.fdiv (b2 * sq) 2048 + Int.fdiv (ac2 * b6) 2048
    let b3 := Int.tdiv ((ac1 * 4 + x3) * 2 ^ s.oss.toNat + 2) 4
    let x3' := Int.fdiv (Int.fdiv (ac3 * b6) 8192 + Int.fdiv (b1 * sq) 65536 + 2) 4
    let b4 := Int.fdiv (ac4 * ((x3' + 32768) % 4294967296) % 4294967296) 32768
    let b7 := (((s.up.toNat : Int) - b3) % 4294967296) * (Int.fdiv 50000 (2 ^ s.oss.toNat)) % 4294967296
    let p := if b7 < 2147483648 then Int.fdiv (b7 * 2) b4 else Int.fdiv b7 b4 * 2 % 4294967296
    let q := Int.fdiv p 256
    let x1''' := Int.fdiv (q * q * 3038) 65536
    let x2''' := Int.fdiv (-7357 * p) 65536
    (s.loaded = 0x7FF → s.utValid = true → s.upValid = true → x1 + md ≠ 0 → b4 ≠ 0 →
      ∃ t, exec .cmpp s = .next t ∧ t.pres.toInt = p + Int.fdiv (x1''' + x2''' + 3791) 16 ∧ t.pValid = true ∧
        t.utValid = false ∧ t.upValid = false ∧
        { t with pres := s.pres, pValid := s.pValid, utValid := s.utValid, upValid := s.upValid } = s) ∧
    (s.loaded ≠ 0x7FF →
      exec .cmpp s = .next { s with
        pValid := false, faultMask := s.faultMask ||| 0x04,
        faultFirst := if s.faultFirst = 0 then 2 else s.faultFirst }) ∧
    (s.loaded = 0x7FF → s.utValid = false →
      exec .cmpp s = .next { s with
        pValid := false, faultMask := s.faultMask ||| 0x08,
        faultFirst := if s.faultFirst = 0 then 3 else s.faultFirst }) ∧
    (s.loaded = 0x7FF → s.utValid = true → s.upValid = false →
      exec .cmpp s = .next { s with
        pValid := false, faultMask := s.faultMask ||| 0x10,
        faultFirst := if s.faultFirst = 0 then 4 else s.faultFirst }) ∧
    (s.loaded = 0x7FF → s.utValid = true → s.upValid = true → x1 + md = 0 →
      exec .cmpp s = .next { s with
        pValid := false, faultMask := s.faultMask ||| 0x20,
        faultFirst := if s.faultFirst = 0 then 5 else s.faultFirst }) ∧
    (s.loaded = 0x7FF → s.utValid = true → s.upValid = true → x1 + md ≠ 0 → b4 = 0 →
      exec .cmpp s = .next { s with
        pValid := false, faultMask := s.faultMask ||| 0x40,
        faultFirst := if s.faultFirst = 0 then 6 else s.faultFirst })

/-! ### The fault registers -/

/-- 60_exceptions.md R261: what recording a fault does, for each of the six codes; and a word that raises it does nothing
further (but the valid bit R263 has it clear first). -/
def Obligations.RaisingAFaultRecordsIt : Prop :=
  ∀ (c : FaultCode) (s : State),
    c.code ∈ [1, 2, 3, 4, 5, 6] ∧
    (∀ b : Nat, (raiseFault c s).faultMask.getLsbD b = (s.faultMask.getLsbD b || decide (b = c.code))) ∧
    (raiseFault c s).faultFirst.toNat = (if s.faultFirst = 0 then c.code else s.faultFirst.toNat) ∧
    { raiseFault c s with faultMask := s.faultMask, faultFirst := s.faultFirst } = s ∧
    ∀ w : Word, faultOf w s = some c → ∃ t, perform w s = .next t ∧
      t.faultMask = (raiseFault c s).faultMask ∧ t.faultFirst = (raiseFault c s).faultFirst ∧
      { t with faultMask := s.faultMask, faultFirst := s.faultFirst, tValid := s.tValid, pValid := s.pValid } = s

/-- 60_exceptions.md R263: a faulting command changes the fault registers, T_VALID where it is a CMPT, P_VALID where it is a
CMPP, and nothing else. -/
def Obligations.FaultingCommandChangesOnly : Prop :=
  ∀ (w : Word) (s : State) (c : FaultCode), faultOf w s = some c →
    perform w s = .next { s with
      faultMask := s.faultMask ||| BitVec.twoPow 7 c.code
      faultFirst := if s.faultFirst = 0 then BitVec.ofNat 4 c.code else s.faultFirst
      tValid := if decode w = .ok .cmpt then false else s.tValid
      pValid := if decode w = .ok .cmpp then false else s.pValid }

/-- 60_exceptions.md R262: one command raises at most one fault, and where several causes apply to a CMPT or a CMPP it is
the one with the lowest code. -/
def Obligations.LowestCauseIsRaised : Prop :=
  ∀ s : State,
    (∀ c, cmptCause s c → ∃ c0, cmptCause s c0 ∧ (∀ e, cmptCause s e → c0.code ≤ e.code) ∧
      exec .cmpt s = .next (faultCmpt c0 s)) ∧
    (∀ c, cmppCause s c → ∃ c0, cmppCause s c0 ∧ (∀ e, cmppCause s e → c0.code ≤ e.code) ∧
      exec .cmpp s = .next (faultCmpp c0 s)) ∧
    ((∀ c, ¬ cmptCause s c) → ∃ t, exec .cmpt s = .next t ∧ t.tValid = true ∧ t.faultMask = s.faultMask) ∧
    ((∀ c, ¬ cmppCause s c) → ∃ t, exec .cmpp s = .next t ∧ t.pValid = true ∧ t.faultMask = s.faultMask)

/-- 60_exceptions.md R265: over a run of words with no SRST, FAULT_FIRST is the first code raised (where none was recorded
before) and FAULT_MASK gains exactly the codes raised. -/
def Obligations.FaultsAccumulateOverARun : Prop :=
  ∀ (ws : List Word) (s : State), (∀ w ∈ ws, decode w ≠ .ok .srst) →
    (issueAll ws s).faultFirst =
      (if s.faultFirst = 0 then ((codesOf ws s).head?.map FaultCode.first).getD 0 else s.faultFirst) ∧
    ∀ b : Nat, (issueAll ws s).faultMask.getLsbD b =
      (s.faultMask.getLsbD b || (codesOf ws s).any (fun c => decide (c.code = b)))

/-- 10_state.md R30, R31, 60_exceptions.md R264: no word but SRST clears a fault register, SRST clears both, and bit 0 of
FAULT_MASK reads 0 in every state. -/
def Obligations.OnlySrstClearsFaultRegisters : Prop :=
  (∀ (w : Word) (s : State), decode w ≠ .ok .srst →
    (s.faultFirst ≠ 0 → (issue w s).faultFirst = s.faultFirst) ∧
    ∀ b : Nat, s.faultMask.getLsbD b = true → (issue w s).faultMask.getLsbD b = true) ∧
  (∀ (w : Word) (s : State), decode w = .ok .srst →
    (issue w s).faultFirst = 0 ∧ (issue w s).faultMask = 0) ∧
  ∀ s : State, (s.readPort 0x03).getLsbD 0 = false

/-! ### Who writes what -/

/-- 10_state.md R23: LOADED bit k is set by CALW k alone, CALCLR, SRST and the reset input clear the mask, and no other
command changes it. -/
def Obligations.LoadedBitWriters : Prop :=
  (∀ s : State, ∃ t, applyInput .reset s = .next t ∧ t.loaded = 0) ∧
  ∀ (w : Word) (s : State) (k : Fin 11),
    (IsCalw (BitVec.ofNat 4 k.val) w → (issue w s).loaded.getLsbD k.val = true) ∧
    (ClearsLoaded w → (issue w s).loaded = 0) ∧
    (¬ IsCalw (BitVec.ofNat 4 k.val) w → ¬ ClearsLoaded w →
      (issue w s).loaded.getLsbD k.val = s.loaded.getLsbD k.val)

/-- 10_state.md R21, R25: CAL[k] is written only by CALW k and by reset, OSS only by SETOSS and by reset. -/
def Obligations.CoefficientAndOssWriters : Prop :=
  ∀ (w : Word) (s : State),
    (∀ k : Fin 11, (issue w s).cal[k] ≠ s.cal[k] → IsCalw (BitVec.ofNat 4 k.val) w ∨ decode w = .ok .srst) ∧
    ((issue w s).oss ≠ s.oss → (∃ o, decode w = .ok (.setoss o)) ∨ decode w = .ok .srst)

/-- 10_state.md R28, R29: only CMPT and SRST change TEMP or T_VALID, only CMPP and SRST change PRES or P_VALID. -/
def Obligations.ResultWriters : Prop :=
  ∀ (w : Word) (s : State),
    ((issue w s).temp ≠ s.temp ∨ (issue w s).tValid ≠ s.tValid → decode w = .ok .cmpt ∨ decode w = .ok .srst) ∧
    ((issue w s).pres ≠ s.pres ∨ (issue w s).pValid ≠ s.pValid → decode w = .ok .cmpp ∨ decode w = .ok .srst)

/-! ### Runs of commands -/

/-- 40_calibration.md R102, the calibration completeness law. -/
def Obligations.CalibrationCompleteness : Prop :=
  (∀ (pre post : List Word) (s : State), (∀ w ∈ post, ¬ ClearsLoaded w) →
    (∀ k : Fin 11, ∃ w ∈ post, IsCalw (BitVec.ofNat 4 k.val) w) →
    (issueAll (pre ++ post) s).calValid = true) ∧
  (∀ (pre post : List Word) (w : Word) (k : Fin 11) (msb lsb : Byte) (s : State),
    decode w = .ok (.calw (BitVec.ofNat 4 k.val) msb lsb) →
    (∀ v ∈ post, ¬ IsCalw (BitVec.ofNat 4 k.val) v ∧ decode v ≠ .ok .srst) →
    (issueAll (pre ++ w :: post) s).cal[k] = msb ++ lsb) ∧
  (∀ (pre post : List Word) (w : Word) (k : Fin 11) (s : State), ClearsLoaded w →
    (∀ v ∈ post, ¬ IsCalw (BitVec.ofNat 4 k.val) v) →
    (issueAll (pre ++ w :: post) s).calValid = false) ∧
  (∀ (ws : List Word) (k : Fin 11) (s : State), s.loaded.getLsbD k.val = false →
    (∀ v ∈ ws, ¬ IsCalw (BitVec.ofNat 4 k.val) v) → (issueAll ws s).calValid = false)

/-- 70_reset_and_hazards.md R302: from reset, while some coefficient has not been written, a CMPT or CMPP records
CAL_NOT_LOADED, and no result is ever valid. -/
def Obligations.NoResultBeforeCalibration : Prop :=
  ∀ (ws : List Word) (k : Fin 11), (∀ w ∈ ws, ¬ IsCalw (BitVec.ofNat 4 k.val) w) →
    let t := issueAll ws State.reset
    t.tValid = false ∧ t.pValid = false ∧
    exec .cmpt t = .next (faultCmpt .calNotLoaded t) ∧ exec .cmpp t = .next (faultCmpp .calNotLoaded t)

/-- 10_state.md R26, R27, 70_reset_and_hazards.md R307: a raw reading feeds at most one computation. After a CMPT or CMPP
that raised no fault, and whatever is issued without an LDUT, a further CMPT or CMPP faults; after a CMPP that raised no
fault, and whatever is issued without an LDUP, a further CMPP faults. -/
def Obligations.ReadingFeedsOneComputation : Prop :=
  (∀ (w : Word) (ws : List Word) (s : State), (decode w = .ok .cmpt ∨ decode w = .ok .cmpp) → faultOf w s = none →
    (∀ v ∈ ws, ∀ msb lsb, decode v ≠ .ok (.ldut msb lsb)) →
    let t := issueAll (w :: ws) s
    t.utValid = false ∧
    (exec .cmpt t = .next (faultCmpt .calNotLoaded t) ∨ exec .cmpt t = .next (faultCmpt .utNotLoaded t)) ∧
    (exec .cmpp t = .next (faultCmpp .calNotLoaded t) ∨ exec .cmpp t = .next (faultCmpp .utNotLoaded t))) ∧
  ∀ (w : Word) (ws : List Word) (s : State), decode w = .ok .cmpp → faultOf w s = none →
    (∀ v ∈ ws, ∀ a b c, decode v ≠ .ok (.ldup a b c)) →
    let t := issueAll (w :: ws) s
    t.upValid = false ∧ ∃ c ∈ [FaultCode.calNotLoaded, .utNotLoaded, .upNotLoaded], exec .cmpp t = .next (faultCmpp c t)

/-- 10_state.md R27, 41_input.md R120: after a SETOSS, whatever is issued without an LDUP, UP_VALID is 0 and a CMPP faults:
UP never meets a CMPP whose OSS is not its own. -/
def Obligations.UpNeverMeetsAnotherOss : Prop :=
  ∀ (w : Word) (ws : List Word) (o : BitVec 2) (s : State), decode w = .ok (.setoss o) →
    (∀ v ∈ ws, ∀ a b c, decode v ≠ .ok (.ldup a b c)) →
    let t := issueAll (w :: ws) s
    t.upValid = false ∧ ∃ c, c.code ≤ 4 ∧ exec .cmpp t = .next (faultCmpp c t)

/-! ### The invariant -/

/-- The invariant holds at reset. -/
def Obligations.InvariantAtReset : Prop := State.reset.Inv

/-- Every step keeps the invariant. -/
def Obligations.StepKeepsTheInvariant : Prop := ∀ s t : State, s.Inv → step s = .next t → t.Inv

/-! ### Arithmetic -/

/-- 10_state.md R22: the number the arithmetic reads each coefficient as, by its signedness, and its range. -/
def Obligations.CoefficientValues : Prop :=
  ∀ cal : Vector Half 11,
    let c := coeffs cal
    (∀ p ∈ [((0 : Fin 11), c.ac1), (1, c.ac2), (2, c.ac3), (6, c.b1), (7, c.b2), (8, c.mb), (9, c.mc), (10, c.md)],
      p.2 = (if cal[p.1].getLsbD 15 then (cal[p.1].toNat : Int) - 65536 else cal[p.1].toNat) ∧
      -32768 ≤ p.2 ∧ p.2 ≤ 32767) ∧
    (∀ p ∈ [((3 : Fin 11), c.ac4), (4, c.ac5), (5, c.ac6)],
      p.2 = cal[p.1].toNat ∧ 0 ≤ p.2 ∧ p.2 ≤ 65535)

/-- 00_scope.md R9, 42_compensation.md R142: asr is the floor, tdiv truncates toward zero. -/
def Obligations.ShiftAndDivisionLaws : Prop :=
  (∀ (x : Int) (n : Nat), asr x n * 2 ^ n ≤ x ∧ x < (asr x n + 1) * 2 ^ n) ∧
  (∀ a b : Int, b ≠ 0 →
    (tdiv a b).natAbs = a.natAbs / b.natAbs ∧
    (0 < tdiv a b → (0 < a ↔ 0 < b)) ∧ (tdiv a b < 0 → (0 < a ↔ b < 0)))

/-- The temperature rows of 42_compensation.md R140's table, over every calibration and every UT. -/
def Obligations.TemperatureStagesBounded : Prop :=
  ∀ (cal : Vector Half 11) (ut : Half),
    let c := coeffs cal
    let u := zext ut
    (-4294836225 ≤ (u - c.ac6) * c.ac5 ∧ (u - c.ac6) * c.ac5 ≤ 4294836225) ∧
    (-131069 ≤ stageX1 c u ∧ stageX1 c u ≤ 131068) ∧
    (-163837 ≤ stageDen c u ∧ stageDen c u ≤ 163835) ∧
    (-67108864 ≤ shl c.mc 11 ∧ shl c.mc 11 ≤ 67106816) ∧
    (stageDen c u ≠ 0 → -67108864 ≤ stageX2 c u ∧ stageX2 c u ≤ 67108864) ∧
    (∀ b5, stageB5 c u = .ok b5 → (-67239933 ≤ b5 ∧ b5 ≤ 67239932) ∧
      -4202496 ≤ stageT10 b5 ∧ stageT10 b5 ≤ 4202496)

/-- The pressure rows of R140's table, over every calibration, UT, OSS and p. -/
def Obligations.PressureStagesBounded : Prop :=
  ∀ (cal : Vector Half 11) (ut : Half) (oss : BitVec 2) (b5 : Int), stageB5 (coeffs cal) (zext ut) = .ok b5 →
    let c := coeffs cal
    let b6 := stageB6 b5
    (-67243933 ≤ b6 ∧ b6 ≤ 67235932) ∧
    (0 ≤ b6 * b6 ∧ b6 * b6 ≤ 4521746525308489) ∧
    (|c.b2 * stageSq b6| < 36200000000000000) ∧
    (-17664148234575 ≤ stageX3 c b6 ∧ stageX3 c b6 ≤ 17663609233217) ∧
    (|shl (c.ac1 * 4 + stageX3 c b6) oss.toNat + 2| < 142000000000000) ∧
    (-138059994728 ≤ stageX3p c b6 ∧ stageX3p c b6 ≤ 138055785576) ∧
    ∀ q : Word,
      let p := s64 q
      (0 ≤ p ∧ p ≤ 4294967295) ∧
      (0 ≤ asr p 8 * asr p 8 * 3038 ∧ asr p 8 * asr p 8 * 3038 ≤ 855120877308611550) ∧
      (0 ≤ stageX1ppp p ∧ stageX1ppp p ≤ 13048109089792) ∧
      (-482148352 ≤ stageX2ppp p ∧ stageX2ppp p ≤ 0) ∧
      (-30134036 ≤ stageP p ∧ stageP p ≤ 819801785643)

/-- 42_compensation.md R140, R141: the stages on 64-bit and 32-bit patterns that wrap give, for every calibration, UT, UP
and OSS, what the stages on exact integers give, faults included. -/
def Obligations.FixedWidthEqualsExact : Prop :=
  ∀ (cal : Vector Half 11) (ut : Half) (up : Word) (oss : BitVec 2),
    tempWide cal ut = (tempOf (coeffs cal) (zext ut)).map (BitVec.ofInt 32) ∧
    presWide cal ut up oss = (presOf (coeffs cal) (zext ut) (zext up) oss).map (BitVec.ofInt 64)

/-- 10_state.md R37: MB is stored, counted and readable, and no computation depends on it. -/
def Obligations.MbHasNoEffectOnResults : Prop :=
  (∀ (msb lsb : Byte) (s t : State), exec (.calw 8 msb lsb) s = .next t →
    t.cal[8] = msb ++ lsb ∧ t.loaded.getLsbD 8 = true ∧ (t.readPort 0x18).toNat = msb.toNat * 256 + lsb.toNat) ∧
  (∀ s : State, s.loaded.getLsbD 8 = false → s.calValid = false) ∧
  ∀ (s t : State) (v : Half),
    (exec .cmpt s = .next t → exec .cmpt { s with cal := s.cal.set 8 v } = .next { t with cal := t.cal.set 8 v }) ∧
    (exec .cmpp s = .next t → exec .cmpp { s with cal := s.cal.set 8 v } = .next { t with cal := t.cal.set 8 v })

/-- 42_compensation.md R159: what CMPT and CMPP give depends on the coefficients but MB, UT (and UP, OSS) alone, not on the
history of commands or an earlier result. -/
def Obligations.ResultsDependOnTheInputsOnly : Prop :=
  ∀ s t : State,
    (∀ k : Fin 11, k.val ≠ 8 → s.cal[k] = t.cal[k]) → s.loaded = 0x7FF → t.loaded = 0x7FF → s.ut = t.ut →
    s.utValid = true → t.utValid = true →
    (∃ s' t', exec .cmpt s = .next s' ∧ exec .cmpt t = .next t' ∧ s'.tValid = t'.tValid ∧
      (s'.tValid = true → s'.temp = t'.temp)) ∧
    (s.up = t.up → s.oss = t.oss → s.upValid = true → t.upValid = true →
      ∃ s' t', exec .cmpp s = .next s' ∧ exec .cmpp t = .next t' ∧ s'.pValid = t'.pValid ∧
        (s'.pValid = true → s'.pres = t'.pres))

/-- The source's reference vector (95_test_vectors.md V-A1): 15.0 degrees and 69964 Pa. -/
def Obligations.SourceReferenceVector : Prop :=
  let cal : Vector Half 11 := #v[0x0198, 0xFFB8, 0xC7D1, 0x7FE5, 0x7FF5, 0x5A71, 0x182E, 0x0004, 0x8000, 0xDDF9, 0x0B34]
  tempOf (coeffs cal) 27898 = .ok 150 ∧ presOf (coeffs cal) 27898 23843 0 = .ok 69964 ∧
    (tempToC 150).same (.number 0x402E000000000000) = true

/-! ### The assembler -/

/-- 30_encoding.md R89: a command line with operands in range assembles to the word of its command, and one with an operand
out of range is an assembly error. -/
def Obligations.CommandLinesAssemble : Prop :=
  (∀ k msb lsb : Nat, k ≤ 10 → msb ≤ 0xFF → lsb ≤ 0xFF → ∃ w, assembleLine (.calw k msb lsb) = .ok [w] ∧
    decode w = .ok (.calw (BitVec.ofNat 4 k) (BitVec.ofNat 8 msb) (BitVec.ofNat 8 lsb))) ∧
  (∀ k msb lsb : Nat, 10 < k ∨ 0xFF < msb ∨ 0xFF < lsb → assembleLine (.calw k msb lsb) = .error .outOfRange) ∧
  (∀ o : Nat, o ≤ 3 → ∃ w, assembleLine (.setoss o) = .ok [w] ∧ decode w = .ok (.setoss (BitVec.ofNat 2 o))) ∧
  (∀ o : Nat, 3 < o → assembleLine (.setoss o) = .error .outOfRange) ∧
  (∀ msb lsb : Nat, msb ≤ 0xFF → lsb ≤ 0xFF → ∃ w, assembleLine (.ldut msb lsb) = .ok [w] ∧
    decode w = .ok (.ldut (BitVec.ofNat 8 msb) (BitVec.ofNat 8 lsb))) ∧
  (∀ msb lsb : Nat, 0xFF < msb ∨ 0xFF < lsb → assembleLine (.ldut msb lsb) = .error .outOfRange) ∧
  (∀ msb lsb x : Nat, msb ≤ 0xFF → lsb ≤ 0xFF → x ≤ 0xFF → ∃ w, assembleLine (.ldup msb lsb x) = .ok [w] ∧
    decode w = .ok (.ldup (BitVec.ofNat 8 msb) (BitVec.ofNat 8 lsb) (BitVec.ofNat 8 x))) ∧
  (∀ msb lsb x : Nat, 0xFF < msb ∨ 0xFF < lsb ∨ 0xFF < x → assembleLine (.ldup msb lsb x) = .error .outOfRange) ∧
  assembleLine .calclr = .ok [encode .calclr] ∧ assembleLine .cmpt = .ok [encode .cmpt] ∧
  assembleLine .cmpp = .ok [encode .cmpp] ∧ assembleLine .srst = .ok [encode .srst]

/-- 30_encoding.md R90: CALV loads a coefficient whose value is n, LDUTV latches n, LDUPV latches n where the block's OSS is
the line's, CALIMG loads the eleven coefficients of an image; each is an error outside its condition (for CALV an index
above 10 too, for CALIMG a count of bytes other than 22 or a byte above 0xFF). -/
def Obligations.PseudoInstructionsLoadTheirNumbers : Prop :=
  (∀ (k : Fin 11) (n : Int) (s : State),
    (if coeffSigned k.val then -32768 ≤ n ∧ n ≤ 32767 else 0 ≤ n ∧ n ≤ 65535) →
    ∃ w, assembleLine (.calv k.val n) = .ok [w] ∧ coeffValue k.val (issue w s).cal[k] = n ∧
      (issue w s).loaded.getLsbD k.val = true) ∧
  (∀ (k : Fin 11) (n : Int),
    ¬ (if coeffSigned k.val then -32768 ≤ n ∧ n ≤ 32767 else 0 ≤ n ∧ n ≤ 65535) →
    assembleLine (.calv k.val n) = .error .outOfRange) ∧
  (∀ (k : Nat) (n : Int), 10 < k → assembleLine (.calv k n) = .error .outOfRange) ∧
  (∀ (n : Int) (s : State), 0 ≤ n → n ≤ 65535 →
    ∃ w, assembleLine (.ldutv n) = .ok [w] ∧ ((issue w s).ut.toNat : Int) = n ∧ (issue w s).utValid = true) ∧
  (∀ n : Int, n < 0 ∨ 65535 < n → assembleLine (.ldutv n) = .error .outOfRange) ∧
  (∀ (n : Int) (o : BitVec 2) (s : State), 0 ≤ n → n < 2 ^ (16 + o.toNat) →
    ∃ w, assembleLine (.ldupv n o.toNat) = .ok [w] ∧
      (s.oss = o → ((issue w s).up.toNat : Int) = n ∧ (issue w s).upValid = true)) ∧
  (∀ (n : Int) (o : Nat), n < 0 ∨ 2 ^ (16 + o) ≤ n ∨ 3 < o → assembleLine (.ldupv n o) = .error .outOfRange) ∧
  (∀ (image : Vector Byte 22) (s : State),
    ∃ ws, assembleLine (.calimg (image.toList.map BitVec.toNat)) = .ok (0x20000000 :: ws) ∧ ws.length = 11 ∧
      (issueAll (0x20000000 :: ws) s).calValid = true ∧
      ∀ k : Fin 11, (issueAll (0x20000000 :: ws) s).cal[k] = image[2 * k.val] ++ image[2 * k.val + 1]) ∧
  ∀ bytes : List Nat, (bytes.length ≠ 22 ∨ ∃ b ∈ bytes, 0xFF < b) → assembleLine (.calimg bytes) = .error .outOfRange

/-! ### The host and the device -/

/-- 44_host_protocol.md R221, R222, R223: big-endian composition; the first byte's signedness is the value's, and the signed
and unsigned 16-bit reads carry the same pattern. Each of the six reads, on an open channel with no failing step, gives the
number its registers hold so composed, from the register named upwards. -/
def Obligations.MultiByteReadsAreBigEndian : Prop :=
  (∀ b0 b1 : Byte,
    composeBytes zext [b0, b1] = b0.toNat * 256 + b1.toNat ∧
    composeBytes sext [b0, b1] = (b0 ++ b1).toInt ∧
    BitVec.ofInt 16 (composeBytes zext [b0, b1]) = b0 ++ b1 ∧ BitVec.ofInt 16 (composeBytes sext [b0, b1]) = b0 ++ b1) ∧
  (∀ b0 b1 b2 : Byte,
    composeBytes zext [b0, b1, b2] = b0.toNat * 65536 + b1.toNat * 256 + b2.toNat ∧
    composeBytes sext [b0, b1, b2] = (b0 ++ b1 ++ b2).toInt) ∧
  (∀ (d : Config.Delays) (w : World) (r b0 b1 b2 : Byte), w.channel.isSome = true → w.script = [] →
    w.device.Reads d r b0 →
    ((∃ w', w.readUInt8 d r = .returned (some (b0.toNat : Int)) w' ∧ w'.block = w.block) ∧
      ∃ w', w.readInt8 d r = .returned (some b0.toInt) w' ∧ w'.block = w.block) ∧
    (w.device.Reads d (r + 1) b1 →
      ((∃ w', w.readUInt16 d r = .returned (some ((b0.toNat * 256 + b1.toNat : Nat) : Int)) w' ∧ w'.block = w.block) ∧
        ∃ w', w.readInt16 d r = .returned (some (b0 ++ b1).toInt) w' ∧ w'.block = w.block) ∧
      (w.device.Reads d (r + 2) b2 →
        (∃ w', w.readUInt24 d r = .returned (some ((b0.toNat * 65536 + b1.toNat * 256 + b2.toNat : Nat) : Int)) w' ∧
          w'.block = w.block) ∧
        ∃ w', w.readInt24 d r = .returned (some (b0 ++ b1 ++ b2).toInt) w' ∧ w'.block = w.block))) ∧
  ∀ (d : Config.Delays) (w : World) (k : Fin 11), w.Ready d →
    ∃ w', w.readUInt16 d (BitVec.ofNat 8 (0xAA + 2 * k.val)) =
      .returned (some (composeBytes zext [w.device.calibration[2 * k.val], w.device.calibration[2 * k.val + 1]])) w' ∧
      w'.block = w.block

/-- 44_host_protocol.md R226: on a closed channel every read and write reports failure and touches nothing, and closing it
again changes nothing. -/
def Obligations.ClosedChannelTouchesNothing : Prop :=
  ∀ (d : Config.Delays) (w : World) (r v : Byte), w.channel = none →
    w.readUInt8 d r = .returned none w ∧ w.readInt8 d r = .returned none w ∧
    w.readUInt16 d r = .returned none w ∧ w.readInt16 d r = .returned none w ∧
    w.readUInt24 d r = .returned none w ∧ w.readInt24 d r = .returned none w ∧
    w.writeUInt8 d r v = .returned false w ∧ w.closeBus = w

/-- 44_host_protocol.md R233, R234, R232, R237: on a driver that is not open the accessors return NaN, which fails equality
with itself, RESET returns false, and nothing else happens. That every number equals itself, whatever its 64 bits, is the
model's choice of one NaN value beside the numbers (log 20, PRESUMED), no rule of the spec. -/
def Obligations.ClosedDriverReturnsNan : Prop :=
  (∀ (d : Config.Delays) (w : World), w.driverOpen = false →
    w.readTemperature d = .returned .nan w ∧ w.readPressure d = .returned .nan w ∧
    w.resetDevice d = .returned false w) ∧
  (Reading.nan).same .nan = false ∧ ∀ b : Long, (Reading.number b).same (.number b) = true

/-- R233, R234 (the source's §8.6): where the write of a conversion trigger fails, nothing is read and no command is issued
after it, and the accessor returns NaN. The first trigger leaves the block as it was; READP's second leaves it after the
LDUT of the temperature read. -/
def Obligations.FailedTriggerReadsNothing : Prop :=
  ∀ (d : Config.Delays) (w : World) (rest : List BusFate), w.driverOpen = true → w.channel.isSome = true →
    (w.script = .fail :: rest →
      ∃ w', w.readTemperature d = .returned .nan w' ∧ w.readPressure d = .returned .nan w' ∧ w'.block = w.block ∧
        w'.trace = w.trace ++ [.writePair 0xF4 0x2E]) ∧
    (w.script = List.replicate 5 .ok ++ .fail :: rest →
      ∃ (w' : World) (events : List Event) (msb lsb : Byte), w.readPressure d = .returned .nan w' ∧
        w'.script = rest ∧
        w'.trace = w.trace ++ events ++ [.issued (encode (.ldut msb lsb)), .writePair 0xF4 0x34] ∧
        (∀ word, .issued word ∉ events) ∧
        w'.block = { w.block with ut := msb ++ lsb, utValid := true })

/-- R233, R234, R225: where a byte read of a result fails, at either of its bus steps, the accessor returns NaN at once, with
no further bus step. READT, and READP in its first conversion, then issue no command at all; READP in its second issues the
LDUT of the first and no LDUP or CMPP, and the block keeps UT_VALID = 1. -/
def Obligations.FailedResultReadReturnsNan : Prop :=
  ∀ (d : Config.Delays) (w : World) (n : Nat) (rest : List BusFate), w.driverOpen = true → w.channel.isSome = true →
    w.script = List.replicate n .ok ++ .fail :: rest →
    (1 ≤ n → n ≤ 4 →
      ∃ (w' : World) (events : List Event), w.readTemperature d = .returned .nan w' ∧
        w.readPressure d = .returned .nan w' ∧ w'.script = rest ∧ w'.trace = w.trace ++ events ∧
        (∀ word, .issued word ∉ events) ∧ w'.block = w.block) ∧
    (6 ≤ n → n ≤ 11 →
      ∃ (w' : World) (before after : List Event) (msb lsb : Byte), w.readPressure d = .returned .nan w' ∧
        w'.script = rest ∧ w'.trace = w.trace ++ before ++ .issued (encode (.ldut msb lsb)) :: after ∧
        (∀ word, .issued word ∉ before ++ after) ∧
        w'.block = { w.block with ut := msb ++ lsb, utValid := true })

/-- OPEN (R231) where every bus step succeeds: it returns true, the block has been reset and holds the device's calibration
image, and the driver is calibrated. The words it issues are SRST, CALCLR (92_eei_decisions.md D32, which R231 cites; its
pseudocode has none: log 19) and the eleven CALW. The model's choices, and no rule of the spec: that the sensor answers at
every path and address (log 27, DESIGN CHOICE), and that an open channel is closed and bound anew (log 18, DESIGN CHOICE). -/
def Obligations.OpenLoadsTheImage : Prop :=
  ∀ (d : Config.Delays) (w : World) (path : List Char) (address : BitVec 7), w.script = [] → w.device.started d = true →
    ∃ w', w.openDriver d path address = .returned true w' ∧ w'.channel = some ⟨path, address⟩ ∧
      w'.driverState = .calibrated ∧
      issuedWords w'.trace = issuedWords w.trace ++ [encode .srst, encode .calclr] ++
        List.ofFn (fun k : Fin 11 => encode
          (.calw (BitVec.ofNat 4 k.val) w.device.calibration[2 * k.val] w.device.calibration[2 * k.val + 1])) ∧
      (∀ k : Fin 11, w'.block.cal[k] = w.device.calibration[2 * k.val] ++ w.device.calibration[2 * k.val + 1]) ∧
      { w'.block with cal := State.reset.cal, loaded := 0, inputs := [] } = State.reset

/-- LOADCAL and RESET (R231, R232): whatever fails on the bus, LOADCAL reports true exactly where all eleven
coefficients are loaded, whatever the mask before it (it begins with the CALCLR of 92_eei_decisions.md D32: log 19), and
RESET returns true only then. -/
def Obligations.CalibrationLoadIsReportedExactly : Prop :=
  (∀ (d : Config.Delays) (w w' : World) (b : Bool), w.loadCal d = .returned b w' → w'.block.calValid = b) ∧
  ∀ (d : Config.Delays) (w w' : World), w.resetDevice d = .returned true w' → w'.block.calValid = true

/-- READT (R233) where every bus step succeeds: it returns TEMP_TO_C of the block's T10, and the block has taken the
reading. -/
def Obligations.ReadTemperatureReturnsTheResult : Prop :=
  ∀ (d : Config.Delays) (w : World) (b0 b1 : Byte) (rest : List (List Byte)) (t10 : Int),
    w.Ready d → w.device.adc = [b0, b1] :: rest → w.block.loaded = 0x7FF →
    tempOf (coeffs w.block.cal) (zext (b0 ++ b1)) = .ok t10 →
    ∃ w', w.readTemperature d = .returned (tempToC t10) w' ∧
      w'.block = { w.block with ut := b0 ++ b1, utValid := false, temp := BitVec.ofInt 32 t10, tValid := true }

/-- READP (R234) where every bus step succeeds, OSS being 0: it returns PRES_TO_PA of the block's pressure. -/
def Obligations.ReadPressureReturnsTheResult : Prop :=
  ∀ (d : Config.Delays) (w : World) (a0 a1 b0 b1 b2 : Byte) (rest : List (List Byte)) (p : Int),
    w.Ready d → w.device.adc = [a0, a1] :: [b0, b1, b2] :: rest → w.block.loaded = 0x7FF → w.block.oss = 0 →
    presOf (coeffs w.block.cal) (zext (a0 ++ a1)) (zext (b0 ++ b1)) 0 = .ok p →
    ∃ w', w.readPressure d = .returned (presToPa (BitVec.ofInt 64 p)) w' ∧
      w'.block.pres = BitVec.ofInt 64 p ∧ w'.block.pValid = true ∧ w'.block.utValid = false ∧
      w'.block.upValid = false ∧ w'.block.temp = w.block.temp ∧ w'.block.tValid = w.block.tValid

/-- R237: whatever happens on the bus, a number READT or READP returns is the block's result, with its valid bit 1. -/
def Obligations.NumbersComeFromValidResults : Prop :=
  ∀ (d : Config.Delays) (w w' : World) (x : Long),
    (w.readTemperature d = .returned (.number x) w' →
      w'.block.tValid = true ∧ tempToC w'.block.temp.toInt = .number x) ∧
    (w.readPressure d = .returned (.number x) w' →
      w'.block.pValid = true ∧ presToPa w'.block.pres = .number x)

/-- CLOSE (R241): the block keeps its state, the driver and the channel are closed, a second CLOSE changes nothing, and the
accessors then return NaN and issue nothing. -/
def Obligations.CloseKeepsTheBlock : Prop :=
  ∀ (d : Config.Delays) (w : World),
    w.closeDriver.readTemperature d = .returned .nan w.closeDriver ∧
    w.closeDriver.readPressure d = .returned .nan w.closeDriver ∧
    w.closeDriver.block = w.block ∧ w.closeDriver.channel = none ∧ w.closeDriver.driverOpen = false ∧
    w.closeDriver.closeDriver = w.closeDriver ∧ w.closeDriver.driverState = .closed

/-- PRES_TO_PA (R236) is exact below 2^53 in absolute value, and so for PRES in every state of the invariant. -/
def Obligations.PressureConvertsExactly : Prop :=
  (∀ u : Long, -(2 ^ 53) < u.toInt → u.toInt < 2 ^ 53 →
    ∃ b, presToPa u = .number b ∧ (ofBinary64 b).value = (u.toInt : Rat)) ∧
  ∀ s : State, s.Inv → ∃ b, presToPa s.readPres = .number b ∧ (ofBinary64 b).value = (s.pres.toInt : Rat)

/-- TEMP_TO_C (R235) on the rows of 95_test_vectors.md V-H, as binary64 patterns. -/
def Obligations.TemperatureScaleVectors : Prop :=
  tempToC 150 = .number 0x402E000000000000 ∧ tempToC 3 = .number 0x3FD3333333333334 ∧
  tempToC 7 = .number 0x3FE6666666666667 ∧ tempToC (-1392) = .number 0xC061666666666667 ∧
  tempToC (-1) = .number 0xBFB999999999999A ∧ tempToC 0 = .number 0 ∧ tempToC 253 = .number 0x40394CCCCCCCCCCD ∧
  tempToC 2623 = .number 0x407064CCCCCCCCCD ∧ tempToC (-400) = .number 0xC044000000000000
end

