-- ==== Sys2Proof/Laws/Compensation.lean ====
section
/-! SUPPORT. Laws of the arithmetic: bounds of a shift and of a truncating division, and the ranges of coefficients. -/

namespace Sys2Proof.Machine

theorem asr_eq_fdiv (x : Int) (n : Nat) : asr x n = Int.fdiv x (2 ^ n) := by
  rw [asr, Int.fdiv_eq_ediv_of_nonneg _ (by positivity)]

theorem asr_mono {x y : Int} (n : Nat) (h : x ≤ y) : asr x n ≤ asr y n :=
  Int.ediv_le_ediv (by positivity) h

/-- A shift of a bounded value is bounded by the shifts of the bounds. -/
theorem asr_bounds {x lo hi : Int} (n : Nat) (h : lo ≤ x ∧ x ≤ hi) : asr lo n ≤ asr x n ∧ asr x n ≤ asr hi n :=
  ⟨asr_mono n h.1, asr_mono n h.2⟩

theorem sext_bounds (v : Half) : -32768 ≤ sext v ∧ sext v ≤ 32767 := by
  have h1 := BitVec.le_toInt v
  have h2 := BitVec.toInt_lt (x := v)
  simp only [sext]
  constructor <;> norm_num at * <;> omega

theorem zext_bounds (v : Half) : 0 ≤ zext v ∧ zext v ≤ 65535 := by
  have := v.isLt
  simp only [zext]
  omega

theorem s64_bounds (u : Word) : 0 ≤ s64 u ∧ s64 u ≤ 4294967295 := by
  have := u.isLt
  simp only [s64]
  omega

/-- A product of bounded factors, in absolute value. -/
theorem abs_mul_le {a b A B : Int} (ha : |a| ≤ A) (hb : |b| ≤ B) : |a * b| ≤ A * B := by
  rw [abs_mul]
  exact mul_le_mul ha hb (abs_nonneg b) ((abs_nonneg a).trans ha)

/-- A truncating quotient is no larger than its dividend. -/
theorem abs_tdiv_le (a b : Int) : |tdiv a b| ≤ |a| := by
  have h : (a.tdiv b).natAbs = a.natAbs / b.natAbs := Int.natAbs_tdiv a b
  rw [tdiv, Int.abs_eq_natAbs, Int.abs_eq_natAbs, h]
  exact_mod_cast Nat.div_le_self _ _

end Sys2Proof.Machine
end

