-- ==== Sys2Proof/Laws/Decode.lean ====
section
/-! SUPPORT. Small lemmas of the decoder and the encoder: the fields of a packed word, and a word from its fields. -/

namespace Sys2Proof

@[simp] theorem fieldOp_packFields (op sel : BitVec 4) (d2 d1 d0 : Byte) :
    fieldOp (packFields op sel d2 d1 d0) = op := by
  apply BitVec.eq_of_getLsbD_eq
  intro i hi
  simp only [fieldOp, packFields, BitVec.getLsbD_extractLsb', BitVec.getLsbD_append]
  interval_cases i <;> simp

@[simp] theorem fieldSel_packFields (op sel : BitVec 4) (d2 d1 d0 : Byte) :
    fieldSel (packFields op sel d2 d1 d0) = sel := by
  apply BitVec.eq_of_getLsbD_eq
  intro i hi
  simp only [fieldSel, packFields, BitVec.getLsbD_extractLsb', BitVec.getLsbD_append]
  interval_cases i <;> simp

@[simp] theorem fieldD2_packFields (op sel : BitVec 4) (d2 d1 d0 : Byte) :
    fieldD2 (packFields op sel d2 d1 d0) = d2 := by
  apply BitVec.eq_of_getLsbD_eq
  intro i hi
  simp only [fieldD2, packFields, BitVec.getLsbD_extractLsb', BitVec.getLsbD_append]
  interval_cases i <;> simp

@[simp] theorem fieldD1_packFields (op sel : BitVec 4) (d2 d1 d0 : Byte) :
    fieldD1 (packFields op sel d2 d1 d0) = d1 := by
  apply BitVec.eq_of_getLsbD_eq
  intro i hi
  simp only [fieldD1, packFields, BitVec.getLsbD_extractLsb', BitVec.getLsbD_append]
  interval_cases i <;> simp

@[simp] theorem fieldD0_packFields (op sel : BitVec 4) (d2 d1 d0 : Byte) :
    fieldD0 (packFields op sel d2 d1 d0) = d0 := by
  apply BitVec.eq_of_getLsbD_eq
  intro i hi
  simp only [fieldD0, packFields, BitVec.getLsbD_extractLsb', BitVec.getLsbD_append]
  interval_cases i <;> simp

/-- A word is its five fields (30_encoding.md R80). -/
theorem packFields_fields (w : Word) :
    packFields (fieldOp w) (fieldSel w) (fieldD2 w) (fieldD1 w) (fieldD0 w) = w := by
  apply BitVec.eq_of_getLsbD_eq
  intro i hi
  simp only [fieldOp, fieldSel, fieldD2, fieldD1, fieldD0, packFields, BitVec.getLsbD_extractLsb',
    BitVec.getLsbD_append]
  interval_cases i <;> simp

/-- The number of a packed word. -/
theorem toNat_packFields (op sel : BitVec 4) (d2 d1 d0 : Byte) :
    (packFields op sel d2 d1 d0).toNat =
      op.toNat * 2 ^ 28 + sel.toNat * 2 ^ 24 + d2.toNat * 2 ^ 16 + d1.toNat * 2 ^ 8 + d0.toNat := by
  have h1 := d2.isLt
  have h2 := d1.isLt
  have h3 := d0.isLt
  have h4 := sel.isLt
  simp only [packFields, BitVec.toNat_append]
  rw [← Nat.shiftLeft_add_eq_or_of_lt h4, ← Nat.shiftLeft_add_eq_or_of_lt h1, ← Nat.shiftLeft_add_eq_or_of_lt h2,
    ← Nat.shiftLeft_add_eq_or_of_lt h3]
  simp only [Nat.shiftLeft_eq]
  omega

theorem toNat_fieldOp (w : Word) : (fieldOp w).toNat = w.toNat / 2 ^ 28 := by
  have := w.isLt
  simp only [fieldOp, BitVec.extractLsb'_toNat, Nat.shiftRight_eq_div_pow]
  omega

theorem toNat_fieldSel (w : Word) : (fieldSel w).toNat = w.toNat / 2 ^ 24 % 16 := by
  simp [fieldSel, BitVec.extractLsb'_toNat, Nat.shiftRight_eq_div_pow]

theorem toNat_fieldD2 (w : Word) : (fieldD2 w).toNat = w.toNat / 2 ^ 16 % 256 := by
  simp [fieldD2, BitVec.extractLsb'_toNat, Nat.shiftRight_eq_div_pow]

theorem toNat_fieldD1 (w : Word) : (fieldD1 w).toNat = w.toNat / 2 ^ 8 % 256 := by
  simp [fieldD1, BitVec.extractLsb'_toNat, Nat.shiftRight_eq_div_pow]

theorem toNat_fieldD0 (w : Word) : (fieldD0 w).toNat = w.toNat % 256 := by
  simp [fieldD0, BitVec.extractLsb'_toNat]

end Sys2Proof
end

