-- ==== Sys2Proof/Laws/FixedWidth.lean ====
section
/-! SUPPORT. Each S64 operation is the integer operation where its operands are in range (42_compensation.md R140), and the
conversions between the domains (R141). -/

namespace Sys2Proof.Machine

theorem toInt_toS64 {x : Int} (h : -9223372036854775808 ≤ x ∧ x ≤ 9223372036854775807) : (toS64 x).toInt = x := by
  rw [toS64, BitVec.toInt_ofInt]
  exact Int.bmod_eq_of_le (by norm_num; omega) (by norm_num; omega)

theorem toS64_toInt (v : S64) : toS64 v.toInt = v := by simp [toS64]

theorem asr64_toS64 {x : Int} (n : Nat) (h : -9223372036854775808 ≤ x ∧ x ≤ 9223372036854775807) :
    asr64 (toS64 x) n = toS64 (asr x n) := by
  rw [← toS64_toInt (asr64 _ _), asr64, BitVec.toInt_sshiftRight, toInt_toS64 h, Int.shiftRight_eq_div_pow, asr]
  norm_num

theorem tdiv64_toS64 {a b : Int} (ha : -9223372036854775808 < a ∧ a ≤ 9223372036854775807)
    (hb : -9223372036854775808 ≤ b ∧ b ≤ 9223372036854775807) :
    tdiv64 (toS64 a) (toS64 b) = toS64 (tdiv a b) := by
  rw [← toS64_toInt (tdiv64 _ _), tdiv64, BitVec.toInt_sdiv_of_ne_or_ne, toInt_toS64 ⟨ha.1.le, ha.2⟩, toInt_toS64 hb,
    tdiv]
  left
  intro h
  have h1 := congrArg BitVec.toInt h
  rw [toInt_toS64 ⟨ha.1.le, ha.2⟩] at h1
  have h2 : (BitVec.intMin 64).toInt = -9223372036854775808 := by decide
  omega

theorem toS64_add (a b : Int) : toS64 a + toS64 b = toS64 (a + b) := by simp [toS64, BitVec.ofInt_add]

theorem toS64_mul (a b : Int) : toS64 a * toS64 b = toS64 (a * b) := by simp [toS64, BitVec.ofInt_mul]

theorem toS64_sub (a b : Int) : toS64 a - toS64 b = toS64 (a - b) := by
  simp only [toS64]
  rw [Int.sub_eq_add_neg, BitVec.ofInt_add, BitVec.ofInt_neg, BitVec.sub_eq_add_neg]

theorem toS64_shl (a : Int) (n : Nat) : toS64 a <<< n = toS64 (shl a n) := by
  rw [BitVec.shiftLeft_eq_mul_twoPow, shl, ← toS64_mul]
  congr 1
  rw [toS64]
  apply BitVec.eq_of_toNat_eq
  simp [BitVec.toNat_ofInt]
  norm_cast

theorem toS64_eq_zero {x : Int} (h : -9223372036854775808 ≤ x ∧ x ≤ 9223372036854775807) : toS64 x = 0 ↔ x = 0 := by
  refine ⟨fun h0 => ?_, fun h0 => h0 ▸ rfl⟩
  have h1 := congrArg BitVec.toInt h0
  rw [toInt_toS64 h] at h1
  simpa using h1

theorem low32_toS64 (a : Int) : low32 (toS64 a) = u32 a := by
  apply BitVec.eq_of_toNat_eq
  simp only [low32, toS64, u32, BitVec.toNat_setWidth, BitVec.toNat_ofInt]
  norm_num
  omega

theorem coeff64_eq (k : Nat) (v : Half) : coeff64 k v = toS64 (coeffValue k v) := by
  unfold coeff64 coeffValue
  split
  · simp [toS64, sext, BitVec.signExtend]
  · apply BitVec.eq_of_toNat_eq
    simp [toS64, zext]

theorem zext64_eq (u : Word) : zext64 u = toS64 (s64 u) := by
  apply BitVec.eq_of_toNat_eq
  simp [zext64, toS64, s64]

theorem setWidth_eq_toS64 (u : Half) : u.setWidth 64 = toS64 (zext u) := by
  apply BitVec.eq_of_toNat_eq
  simp [toS64, zext]

theorem ofNat_eq_toS64 (n : Nat) : BitVec.ofNat 64 n = toS64 n := by
  apply BitVec.eq_of_toNat_eq
  simp [toS64]

end Sys2Proof.Machine
end

