-- ==== Sys2Proof/Laws/Host.lean ====
section
/-! SUPPORT. What a bus operation of the host can do: where it succeeds, what it gives and what it keeps; and, whatever its
fate, that it leaves the block alone. -/

namespace Sys2Proof.Machine

/-! ### Time passing in the device -/

theorem Device.elapse_elapse (dev : Device) (m n : Nat) : (dev.elapse m).elapse n = dev.elapse (m + n) := by
  simp only [Device.elapse, Option.map_map, Function.comp_def, Device.mk.injEq, true_and, and_true]
  exact ⟨by congr 1; ext c; simp [Nat.add_assoc], by congr 1; ext c; simp [Nat.add_assoc]⟩

theorem Device.started_elapse {d : Config.Delays} {dev : Device} (h : dev.started d = true) (n : Nat) :
    (dev.elapse n).started d = true := by
  revert h
  simp only [Device.started, Device.elapse]
  cases dev.sinceReset <;> simp
  omega

theorem Device.Reads.later {d : Config.Delays} {dev : Device} {r b : Byte} (h : dev.Reads d r b) (n : Nat) :
    (dev.elapse n).Reads d r b := fun m => by rw [Device.elapse_elapse]; exact h _

/-- A calibration register of a started device (30_encoding.md R88). -/
theorem Device.reads_calibration {d : Config.Delays} {dev : Device} (h : dev.started d = true) (i : Nat) (hi : i < 22) :
    dev.Reads d (BitVec.ofNat 8 (0xAA + i)) dev.calibration[i] := by
  intro n
  have e : (BitVec.ofNat 8 (0xAA + i)).toNat = 0xAA + i := by simp; omega
  have hc : (dev.elapse n).calibration = dev.calibration := rfl
  simp only [Device.read, e]
  rw [if_pos (by omega), if_pos (Device.started_elapse h n)]
  simp [hc, hi]

/-- A result register of a settled conversion (20_memory.md R54). -/
theorem Device.reads_result {d : Config.Delays} {dev : Device} {m : Measurement} {bs : List Byte} {t i : Nat}
    (hs : dev.started d = true) (hc : dev.conversion = some ⟨m, bs, t⟩) (ht : m.settle d ≤ t) (hi : i < m.width)
    (hb : i < bs.length) (h3 : i < 3) : dev.Reads d (BitVec.ofNat 8 (0xF6 + i)) bs[i] := by
  intro n
  have e : (BitVec.ofNat 8 (0xF6 + i)).toNat = 0xF6 + i := by simp; omega
  have hc' : (dev.elapse n).conversion = some ⟨m, bs, t + n⟩ := by simp [Device.elapse, hc]
  simp only [Device.read, e]
  rw [if_neg (by omega), if_pos (by omega), if_pos (Device.started_elapse hs n)]
  simp only [Device.resultByte, hc']
  rw [if_pos ⟨by omega, by omega⟩]
  simp [hb]

/-! ### The words a trace records -/

@[simp] theorem issuedWords_append (a b : List Event) : issuedWords (a ++ b) = issuedWords a ++ issuedWords b := by
  induction a with
  | nil => rfl
  | cons e a ih => cases e <;> simp [issuedWords, ih]

@[simp] theorem World.issuedWords_issue (w : World) (word : Word) :
    issuedWords (w.issue word).trace = issuedWords w.trace ++ [word] := issuedWords_append ..

/-! ### Reads that succeed -/

/-- What a successful read keeps: everything but the trace (which records no new command), the script (which stays empty)
and the time that passed. -/
structure World.SameAfterReads (w w' : World) : Prop where
  block : w'.block = w.block
  channel : w'.channel = w.channel
  driverOpen : w'.driverOpen = w.driverOpen
  script : w'.script = []
  words : issuedWords w'.trace = issuedWords w.trace
  device : ∃ n, w'.device = w.device.elapse n

theorem World.SameAfterReads.trans {w w1 w2 : World} (h : w.SameAfterReads w1) (g : w1.SameAfterReads w2) :
    w.SameAfterReads w2 := by
  obtain ⟨n, hn⟩ := h.device
  obtain ⟨m, hm⟩ := g.device
  exact ⟨g.block.trans h.block, g.channel.trans h.channel, g.driverOpen.trans h.driverOpen, g.script, g.words.trans h.words, n + m, by
    rw [hm, hn, Device.elapse_elapse]⟩

theorem World.readByte_succeeds {d : Config.Delays} {w : World} {r b : Byte} (hc : w.channel.isSome = true)
    (hs : w.script = []) (hr : w.device.Reads d r b) :
    ∃ w', w.readByte d r = .returned (some b) w' ∧ w.SameAfterReads w' := by
  obtain ⟨c, hc⟩ := Option.isSome_iff_exists.1 hc
  have := hr d.registerTurnaround
  refine ⟨({ w.log (.writeAddress r) with script := [] }.wait d .registerTurnaround).log (.readBack r), ?_,
    ⟨rfl, rfl, rfl, rfl, ?_, _, rfl⟩⟩
  · simp [World.readByte, hc, World.busStep, hs, World.wait, World.log, Delay.amount, World.deviceByte, this]
  · simp [World.wait, World.log, issuedWords]

theorem World.readBytes_succeeds {d : Config.Delays} (bs : List Byte) : ∀ {w : World} {r : Byte},
    w.channel.isSome = true → w.script = [] →
    (∀ i (hi : i < bs.length), w.device.Reads d (r + BitVec.ofNat 8 i) bs[i]) →
    ∃ w', w.readBytes d bs.length r = .returned (some bs) w' ∧ w.SameAfterReads w' := by
  induction bs with
  | nil => intro w r _ hs _; exact ⟨w, rfl, rfl, rfl, rfl, hs, rfl, 0, by simp [Device.elapse]⟩
  | cons b bs ih =>
    intro w r hc hs h
    obtain ⟨w1, e1, s1⟩ := World.readByte_succeeds (b := b) hc hs (by have := h 0 (by simp); simpa using this)
    obtain ⟨w2, e2, s2⟩ := ih (w := w1) (r := r + 1) (by rw [s1.channel]; exact hc) s1.script (by
      intro i hi
      obtain ⟨n, hn⟩ := s1.device
      have hr : r + 1 + BitVec.ofNat 8 i = r + BitVec.ofNat 8 (i + 1) := by
        rw [BitVec.ofNat_add]; simp [BitVec.add_assoc]; rw [BitVec.add_comm 1#8]
      rw [hn, hr]
      exact (h (i + 1) (by simp; omega)).later n)
    refine ⟨w2, ?_, s1.trans s2⟩
    simp only [List.length_cons, World.readBytes, e1, HostRun.andThen, e2]
    rfl

theorem World.readUInt16_succeeds {d : Config.Delays} {w : World} {r b0 b1 : Byte} (hc : w.channel.isSome = true)
    (hs : w.script = []) (h0 : w.device.Reads d r b0) (h1 : w.device.Reads d (r + 1) b1) :
    ∃ w', w.readUInt16 d r = .returned (some (composeBytes zext [b0, b1])) w' ∧ w.SameAfterReads w' := by
  obtain ⟨w', e, s⟩ := World.readBytes_succeeds [b0, b1] (w := w) (r := r) (d := d) hc hs (by
    intro i hi
    simp at hi
    interval_cases i
    · simpa using h0
    · exact h1)
  refine ⟨w', ?_, s⟩
  have e' : World.readBytes d 2 r w = HostRun.returned (some [b0, b1]) w' := e
  simp [World.readUInt16, e', HostRun.andThen]

theorem World.readUInt24_succeeds {d : Config.Delays} {w : World} {r b0 b1 b2 : Byte} (hc : w.channel.isSome = true)
    (hs : w.script = []) (h0 : w.device.Reads d r b0) (h1 : w.device.Reads d (r + 1) b1)
    (h2 : w.device.Reads d (r + 2) b2) :
    ∃ w', w.readUInt24 d r = .returned (some (composeBytes zext [b0, b1, b2])) w' ∧ w.SameAfterReads w' := by
  obtain ⟨w', e, s⟩ := World.readBytes_succeeds [b0, b1, b2] (w := w) (r := r) (d := d) hc hs (by
    intro i hi
    simp at hi
    interval_cases i
    · simpa using h0
    · exact h1
    · exact h2)
  refine ⟨w', ?_, s⟩
  have e' : World.readBytes d 3 r w = HostRun.returned (some [b0, b1, b2]) w' := e
  simp [World.readUInt24, e', HostRun.andThen]

/-! ### Reads of any fate leave the block alone -/

theorem World.readByte_block {d : Config.Delays} {r : Byte} {w w' : World} {v : Option Byte}
    (h : w.readByte d r = .returned v w') : w'.block = w.block := by
  unfold World.readByte at h
  split at h
  · cases h; rfl
  · simp only [World.busStep] at h
    split at h
    · cases h
    · rename_i hh
      obtain ⟨_, rfl⟩ := Prod.mk.inj hh
      cases h
      rfl
    · rename_i w1 hh
      have hb : w1.block = w.block := by obtain ⟨_, rfl⟩ := Prod.mk.inj hh; rfl
      split at h
      · cases h
      · rename_i hh2
        obtain ⟨_, rfl⟩ := Prod.mk.inj hh2
        cases h
        exact hb
      · rename_i w2 hh2
        have hb2 : w2.block = w.block := by obtain ⟨_, rfl⟩ := Prod.mk.inj hh2; exact hb
        unfold World.deviceByte at h
        split at h <;> cases h <;> exact hb2

theorem World.readBytes_block {d : Config.Delays} (n : Nat) : ∀ {r : Byte} {w w' : World} {v : Option (List Byte)},
    w.readBytes d n r = .returned v w' → w'.block = w.block := by
  induction n with
  | zero => intro r w w' v h; cases h; rfl
  | succ n ih =>
    intro r w w' v h
    unfold World.readBytes at h
    cases hr : World.readByte d r w with
    | returned b w1 =>
      rw [hr] at h
      simp only [HostRun.andThen] at h
      have hb := World.readByte_block hr
      split at h
      · cases h; exact hb
      · cases hr2 : World.readBytes d n (r + 1) w1 with
        | returned b2 w2 => rw [hr2] at h; cases h; exact (ih hr2).trans hb
        | blocked w2 => rw [hr2] at h; cases h
        | refused w2 => rw [hr2] at h; cases h
    | blocked w1 => rw [hr] at h; cases h
    | refused w1 => rw [hr] at h; cases h

theorem World.readUInt16_block {d : Config.Delays} {r : Byte} {w w' : World} {v : Option Int}
    (h : w.readUInt16 d r = .returned v w') : w'.block = w.block := by
  unfold World.readUInt16 at h
  cases hr : World.readBytes d 2 r w with
  | returned b w1 => rw [hr] at h; cases h; exact World.readBytes_block 2 hr
  | blocked w1 => rw [hr] at h; cases h
  | refused w1 => rw [hr] at h; cases h

end Sys2Proof.Machine
end

