-- ==== Sys2Proof/Laws/Operands.lean ====
section
/-! SUPPORT. The numbers of assembled operands (30_encoding.md R81) and of the aligned pressure (41_input.md R122). -/

namespace Sys2Proof.Machine

theorem v16_toNat (d1 d0 : Byte) : (v16 d1 d0).toNat = d1.toNat * 256 + d0.toNat := by
  rw [v16, BitVec.toNat_append, ← Nat.shiftLeft_add_eq_or_of_lt d0.isLt, Nat.shiftLeft_eq]

theorem raw24_toNat (d2 d1 d0 : Byte) :
    (raw24 d2 d1 d0).toNat = d2.toNat * 65536 + d1.toNat * 256 + d0.toNat := by
  have h1 := d1.isLt
  have h0 := d0.isLt
  simp only [raw24, BitVec.toNat_append]
  rw [← Nat.shiftLeft_add_eq_or_of_lt h1, ← Nat.shiftLeft_add_eq_or_of_lt h0]
  simp only [Nat.shiftLeft_eq]
  omega

theorem alignUp_toNat (raw : BitVec 24) (oss : BitVec 2) :
    (alignUp raw oss).toNat = raw.toNat / 2 ^ (8 - oss.toNat) := by
  have h := raw.isLt
  rw [alignUp, BitVec.toNat_setWidth, BitVec.toNat_ushiftRight, Nat.shiftRight_eq_div_pow]
  exact Nat.mod_eq_of_lt (lt_of_le_of_lt (Nat.div_le_self _ _) (by omega))

/-- UP < 2^(16 + OSS) for the OSS it is aligned with (R122). -/
theorem alignUp_lt (raw : BitVec 24) (oss : BitVec 2) : (alignUp raw oss).toNat < 2 ^ (16 + oss.toNat) := by
  have h := raw.isLt
  have ho := oss.isLt
  rw [alignUp_toNat]
  apply Nat.div_lt_of_lt_mul
  rw [← pow_add, show 8 - oss.toNat + (16 + oss.toNat) = 24 by omega]
  exact h

end Sys2Proof.Machine
end

