-- ==== Sys2Proof/Laws/State.lean ====
section
/-! SUPPORT. One lemma per field per update of State, true by rfl, so that no proof unfolds a record update. -/

namespace Sys2Proof.Machine

variable (s : State)


/-! ### setCal -/

@[simp] theorem State.setCal_cal (k : Nat) (v : Half) : (s.setCal k v).cal = s.cal.setIfInBounds k v := rfl
@[simp] theorem State.setCal_loaded (k : Nat) (v : Half) : (s.setCal k v).loaded = s.loaded := rfl
@[simp] theorem State.setCal_oss (k : Nat) (v : Half) : (s.setCal k v).oss = s.oss := rfl
@[simp] theorem State.setCal_ut (k : Nat) (v : Half) : (s.setCal k v).ut = s.ut := rfl
@[simp] theorem State.setCal_utValid (k : Nat) (v : Half) : (s.setCal k v).utValid = s.utValid := rfl
@[simp] theorem State.setCal_up (k : Nat) (v : Half) : (s.setCal k v).up = s.up := rfl
@[simp] theorem State.setCal_upValid (k : Nat) (v : Half) : (s.setCal k v).upValid = s.upValid := rfl
@[simp] theorem State.setCal_temp (k : Nat) (v : Half) : (s.setCal k v).temp = s.temp := rfl
@[simp] theorem State.setCal_tValid (k : Nat) (v : Half) : (s.setCal k v).tValid = s.tValid := rfl
@[simp] theorem State.setCal_pres (k : Nat) (v : Half) : (s.setCal k v).pres = s.pres := rfl
@[simp] theorem State.setCal_pValid (k : Nat) (v : Half) : (s.setCal k v).pValid = s.pValid := rfl
@[simp] theorem State.setCal_faultFirst (k : Nat) (v : Half) : (s.setCal k v).faultFirst = s.faultFirst := rfl
@[simp] theorem State.setCal_faultMask (k : Nat) (v : Half) : (s.setCal k v).faultMask = s.faultMask := rfl
@[simp] theorem State.setCal_inputs (k : Nat) (v : Half) : (s.setCal k v).inputs = s.inputs := rfl

/-! ### setLoaded -/

@[simp] theorem State.setLoaded_cal (k : Nat) : (s.setLoaded k).cal = s.cal := rfl
@[simp] theorem State.setLoaded_loaded (k : Nat) : (s.setLoaded k).loaded = s.loaded ||| BitVec.twoPow 11 k := rfl
@[simp] theorem State.setLoaded_oss (k : Nat) : (s.setLoaded k).oss = s.oss := rfl
@[simp] theorem State.setLoaded_ut (k : Nat) : (s.setLoaded k).ut = s.ut := rfl
@[simp] theorem State.setLoaded_utValid (k : Nat) : (s.setLoaded k).utValid = s.utValid := rfl
@[simp] theorem State.setLoaded_up (k : Nat) : (s.setLoaded k).up = s.up := rfl
@[simp] theorem State.setLoaded_upValid (k : Nat) : (s.setLoaded k).upValid = s.upValid := rfl
@[simp] theorem State.setLoaded_temp (k : Nat) : (s.setLoaded k).temp = s.temp := rfl
@[simp] theorem State.setLoaded_tValid (k : Nat) : (s.setLoaded k).tValid = s.tValid := rfl
@[simp] theorem State.setLoaded_pres (k : Nat) : (s.setLoaded k).pres = s.pres := rfl
@[simp] theorem State.setLoaded_pValid (k : Nat) : (s.setLoaded k).pValid = s.pValid := rfl
@[simp] theorem State.setLoaded_faultFirst (k : Nat) : (s.setLoaded k).faultFirst = s.faultFirst := rfl
@[simp] theorem State.setLoaded_faultMask (k : Nat) : (s.setLoaded k).faultMask = s.faultMask := rfl
@[simp] theorem State.setLoaded_inputs (k : Nat) : (s.setLoaded k).inputs = s.inputs := rfl

/-! ### clearLoaded -/

@[simp] theorem State.clearLoaded_cal : s.clearLoaded.cal = s.cal := rfl
@[simp] theorem State.clearLoaded_loaded : s.clearLoaded.loaded = 0 := rfl
@[simp] theorem State.clearLoaded_oss : s.clearLoaded.oss = s.oss := rfl
@[simp] theorem State.clearLoaded_ut : s.clearLoaded.ut = s.ut := rfl
@[simp] theorem State.clearLoaded_utValid : s.clearLoaded.utValid = s.utValid := rfl
@[simp] theorem State.clearLoaded_up : s.clearLoaded.up = s.up := rfl
@[simp] theorem State.clearLoaded_upValid : s.clearLoaded.upValid = s.upValid := rfl
@[simp] theorem State.clearLoaded_temp : s.clearLoaded.temp = s.temp := rfl
@[simp] theorem State.clearLoaded_tValid : s.clearLoaded.tValid = s.tValid := rfl
@[simp] theorem State.clearLoaded_pres : s.clearLoaded.pres = s.pres := rfl
@[simp] theorem State.clearLoaded_pValid : s.clearLoaded.pValid = s.pValid := rfl
@[simp] theorem State.clearLoaded_faultFirst : s.clearLoaded.faultFirst = s.faultFirst := rfl
@[simp] theorem State.clearLoaded_faultMask : s.clearLoaded.faultMask = s.faultMask := rfl
@[simp] theorem State.clearLoaded_inputs : s.clearLoaded.inputs = s.inputs := rfl

/-! ### setOss -/

@[simp] theorem State.setOss_cal (o : BitVec 2) : (s.setOss o).cal = s.cal := rfl
@[simp] theorem State.setOss_loaded (o : BitVec 2) : (s.setOss o).loaded = s.loaded := rfl
@[simp] theorem State.setOss_oss (o : BitVec 2) : (s.setOss o).oss = o := rfl
@[simp] theorem State.setOss_ut (o : BitVec 2) : (s.setOss o).ut = s.ut := rfl
@[simp] theorem State.setOss_utValid (o : BitVec 2) : (s.setOss o).utValid = s.utValid := rfl
@[simp] theorem State.setOss_up (o : BitVec 2) : (s.setOss o).up = s.up := rfl
@[simp] theorem State.setOss_upValid (o : BitVec 2) : (s.setOss o).upValid = s.upValid := rfl
@[simp] theorem State.setOss_temp (o : BitVec 2) : (s.setOss o).temp = s.temp := rfl
@[simp] theorem State.setOss_tValid (o : BitVec 2) : (s.setOss o).tValid = s.tValid := rfl
@[simp] theorem State.setOss_pres (o : BitVec 2) : (s.setOss o).pres = s.pres := rfl
@[simp] theorem State.setOss_pValid (o : BitVec 2) : (s.setOss o).pValid = s.pValid := rfl
@[simp] theorem State.setOss_faultFirst (o : BitVec 2) : (s.setOss o).faultFirst = s.faultFirst := rfl
@[simp] theorem State.setOss_faultMask (o : BitVec 2) : (s.setOss o).faultMask = s.faultMask := rfl
@[simp] theorem State.setOss_inputs (o : BitVec 2) : (s.setOss o).inputs = s.inputs := rfl

/-! ### latchUt -/

@[simp] theorem State.latchUt_cal (v : Half) : (s.latchUt v).cal = s.cal := rfl
@[simp] theorem State.latchUt_loaded (v : Half) : (s.latchUt v).loaded = s.loaded := rfl
@[simp] theorem State.latchUt_oss (v : Half) : (s.latchUt v).oss = s.oss := rfl
@[simp] theorem State.latchUt_ut (v : Half) : (s.latchUt v).ut = v := rfl
@[simp] theorem State.latchUt_utValid (v : Half) : (s.latchUt v).utValid = true := rfl
@[simp] theorem State.latchUt_up (v : Half) : (s.latchUt v).up = s.up := rfl
@[simp] theorem State.latchUt_upValid (v : Half) : (s.latchUt v).upValid = s.upValid := rfl
@[simp] theorem State.latchUt_temp (v : Half) : (s.latchUt v).temp = s.temp := rfl
@[simp] theorem State.latchUt_tValid (v : Half) : (s.latchUt v).tValid = s.tValid := rfl
@[simp] theorem State.latchUt_pres (v : Half) : (s.latchUt v).pres = s.pres := rfl
@[simp] theorem State.latchUt_pValid (v : Half) : (s.latchUt v).pValid = s.pValid := rfl
@[simp] theorem State.latchUt_faultFirst (v : Half) : (s.latchUt v).faultFirst = s.faultFirst := rfl
@[simp] theorem State.latchUt_faultMask (v : Half) : (s.latchUt v).faultMask = s.faultMask := rfl
@[simp] theorem State.latchUt_inputs (v : Half) : (s.latchUt v).inputs = s.inputs := rfl

/-! ### latchUp -/

@[simp] theorem State.latchUp_cal (v : Word) : (s.latchUp v).cal = s.cal := rfl
@[simp] theorem State.latchUp_loaded (v : Word) : (s.latchUp v).loaded = s.loaded := rfl
@[simp] theorem State.latchUp_oss (v : Word) : (s.latchUp v).oss = s.oss := rfl
@[simp] theorem State.latchUp_ut (v : Word) : (s.latchUp v).ut = s.ut := rfl
@[simp] theorem State.latchUp_utValid (v : Word) : (s.latchUp v).utValid = s.utValid := rfl
@[simp] theorem State.latchUp_up (v : Word) : (s.latchUp v).up = v := rfl
@[simp] theorem State.latchUp_upValid (v : Word) : (s.latchUp v).upValid = true := rfl
@[simp] theorem State.latchUp_temp (v : Word) : (s.latchUp v).temp = s.temp := rfl
@[simp] theorem State.latchUp_tValid (v : Word) : (s.latchUp v).tValid = s.tValid := rfl
@[simp] theorem State.latchUp_pres (v : Word) : (s.latchUp v).pres = s.pres := rfl
@[simp] theorem State.latchUp_pValid (v : Word) : (s.latchUp v).pValid = s.pValid := rfl
@[simp] theorem State.latchUp_faultFirst (v : Word) : (s.latchUp v).faultFirst = s.faultFirst := rfl
@[simp] theorem State.latchUp_faultMask (v : Word) : (s.latchUp v).faultMask = s.faultMask := rfl
@[simp] theorem State.latchUp_inputs (v : Word) : (s.latchUp v).inputs = s.inputs := rfl

/-! ### consumeUt -/

@[simp] theorem State.consumeUt_cal : s.consumeUt.cal = s.cal := rfl
@[simp] theorem State.consumeUt_loaded : s.consumeUt.loaded = s.loaded := rfl
@[simp] theorem State.consumeUt_oss : s.consumeUt.oss = s.oss := rfl
@[simp] theorem State.consumeUt_ut : s.consumeUt.ut = s.ut := rfl
@[simp] theorem State.consumeUt_utValid : s.consumeUt.utValid = false := rfl
@[simp] theorem State.consumeUt_up : s.consumeUt.up = s.up := rfl
@[simp] theorem State.consumeUt_upValid : s.consumeUt.upValid = s.upValid := rfl
@[simp] theorem State.consumeUt_temp : s.consumeUt.temp = s.temp := rfl
@[simp] theorem State.consumeUt_tValid : s.consumeUt.tValid = s.tValid := rfl
@[simp] theorem State.consumeUt_pres : s.consumeUt.pres = s.pres := rfl
@[simp] theorem State.consumeUt_pValid : s.consumeUt.pValid = s.pValid := rfl
@[simp] theorem State.consumeUt_faultFirst : s.consumeUt.faultFirst = s.faultFirst := rfl
@[simp] theorem State.consumeUt_faultMask : s.consumeUt.faultMask = s.faultMask := rfl
@[simp] theorem State.consumeUt_inputs : s.consumeUt.inputs = s.inputs := rfl

/-! ### dropUp -/

@[simp] theorem State.dropUp_cal : s.dropUp.cal = s.cal := rfl
@[simp] theorem State.dropUp_loaded : s.dropUp.loaded = s.loaded := rfl
@[simp] theorem State.dropUp_oss : s.dropUp.oss = s.oss := rfl
@[simp] theorem State.dropUp_ut : s.dropUp.ut = s.ut := rfl
@[simp] theorem State.dropUp_utValid : s.dropUp.utValid = s.utValid := rfl
@[simp] theorem State.dropUp_up : s.dropUp.up = s.up := rfl
@[simp] theorem State.dropUp_upValid : s.dropUp.upValid = false := rfl
@[simp] theorem State.dropUp_temp : s.dropUp.temp = s.temp := rfl
@[simp] theorem State.dropUp_tValid : s.dropUp.tValid = s.tValid := rfl
@[simp] theorem State.dropUp_pres : s.dropUp.pres = s.pres := rfl
@[simp] theorem State.dropUp_pValid : s.dropUp.pValid = s.pValid := rfl
@[simp] theorem State.dropUp_faultFirst : s.dropUp.faultFirst = s.faultFirst := rfl
@[simp] theorem State.dropUp_faultMask : s.dropUp.faultMask = s.faultMask := rfl
@[simp] theorem State.dropUp_inputs : s.dropUp.inputs = s.inputs := rfl

/-! ### putTemp -/

@[simp] theorem State.putTemp_cal (x : Int) : (s.putTemp x).cal = s.cal := rfl
@[simp] theorem State.putTemp_loaded (x : Int) : (s.putTemp x).loaded = s.loaded := rfl
@[simp] theorem State.putTemp_oss (x : Int) : (s.putTemp x).oss = s.oss := rfl
@[simp] theorem State.putTemp_ut (x : Int) : (s.putTemp x).ut = s.ut := rfl
@[simp] theorem State.putTemp_utValid (x : Int) : (s.putTemp x).utValid = s.utValid := rfl
@[simp] theorem State.putTemp_up (x : Int) : (s.putTemp x).up = s.up := rfl
@[simp] theorem State.putTemp_upValid (x : Int) : (s.putTemp x).upValid = s.upValid := rfl
@[simp] theorem State.putTemp_temp (x : Int) : (s.putTemp x).temp = BitVec.ofInt 32 x := rfl
@[simp] theorem State.putTemp_tValid (x : Int) : (s.putTemp x).tValid = true := rfl
@[simp] theorem State.putTemp_pres (x : Int) : (s.putTemp x).pres = s.pres := rfl
@[simp] theorem State.putTemp_pValid (x : Int) : (s.putTemp x).pValid = s.pValid := rfl
@[simp] theorem State.putTemp_faultFirst (x : Int) : (s.putTemp x).faultFirst = s.faultFirst := rfl
@[simp] theorem State.putTemp_faultMask (x : Int) : (s.putTemp x).faultMask = s.faultMask := rfl
@[simp] theorem State.putTemp_inputs (x : Int) : (s.putTemp x).inputs = s.inputs := rfl

/-! ### dropTemp -/

@[simp] theorem State.dropTemp_cal : s.dropTemp.cal = s.cal := rfl
@[simp] theorem State.dropTemp_loaded : s.dropTemp.loaded = s.loaded := rfl
@[simp] theorem State.dropTemp_oss : s.dropTemp.oss = s.oss := rfl
@[simp] theorem State.dropTemp_ut : s.dropTemp.ut = s.ut := rfl
@[simp] theorem State.dropTemp_utValid : s.dropTemp.utValid = s.utValid := rfl
@[simp] theorem State.dropTemp_up : s.dropTemp.up = s.up := rfl
@[simp] theorem State.dropTemp_upValid : s.dropTemp.upValid = s.upValid := rfl
@[simp] theorem State.dropTemp_temp : s.dropTemp.temp = s.temp := rfl
@[simp] theorem State.dropTemp_tValid : s.dropTemp.tValid = false := rfl
@[simp] theorem State.dropTemp_pres : s.dropTemp.pres = s.pres := rfl
@[simp] theorem State.dropTemp_pValid : s.dropTemp.pValid = s.pValid := rfl
@[simp] theorem State.dropTemp_faultFirst : s.dropTemp.faultFirst = s.faultFirst := rfl
@[simp] theorem State.dropTemp_faultMask : s.dropTemp.faultMask = s.faultMask := rfl
@[simp] theorem State.dropTemp_inputs : s.dropTemp.inputs = s.inputs := rfl

/-! ### putPres -/

@[simp] theorem State.putPres_cal (x : Int) : (s.putPres x).cal = s.cal := rfl
@[simp] theorem State.putPres_loaded (x : Int) : (s.putPres x).loaded = s.loaded := rfl
@[simp] theorem State.putPres_oss (x : Int) : (s.putPres x).oss = s.oss := rfl
@[simp] theorem State.putPres_ut (x : Int) : (s.putPres x).ut = s.ut := rfl
@[simp] theorem State.putPres_utValid (x : Int) : (s.putPres x).utValid = s.utValid := rfl
@[simp] theorem State.putPres_up (x : Int) : (s.putPres x).up = s.up := rfl
@[simp] theorem State.putPres_upValid (x : Int) : (s.putPres x).upValid = s.upValid := rfl
@[simp] theorem State.putPres_temp (x : Int) : (s.putPres x).temp = s.temp := rfl
@[simp] theorem State.putPres_tValid (x : Int) : (s.putPres x).tValid = s.tValid := rfl
@[simp] theorem State.putPres_pres (x : Int) : (s.putPres x).pres = BitVec.ofInt 64 x := rfl
@[simp] theorem State.putPres_pValid (x : Int) : (s.putPres x).pValid = true := rfl
@[simp] theorem State.putPres_faultFirst (x : Int) : (s.putPres x).faultFirst = s.faultFirst := rfl
@[simp] theorem State.putPres_faultMask (x : Int) : (s.putPres x).faultMask = s.faultMask := rfl
@[simp] theorem State.putPres_inputs (x : Int) : (s.putPres x).inputs = s.inputs := rfl

/-! ### dropPres -/

@[simp] theorem State.dropPres_cal : s.dropPres.cal = s.cal := rfl
@[simp] theorem State.dropPres_loaded : s.dropPres.loaded = s.loaded := rfl
@[simp] theorem State.dropPres_oss : s.dropPres.oss = s.oss := rfl
@[simp] theorem State.dropPres_ut : s.dropPres.ut = s.ut := rfl
@[simp] theorem State.dropPres_utValid : s.dropPres.utValid = s.utValid := rfl
@[simp] theorem State.dropPres_up : s.dropPres.up = s.up := rfl
@[simp] theorem State.dropPres_upValid : s.dropPres.upValid = s.upValid := rfl
@[simp] theorem State.dropPres_temp : s.dropPres.temp = s.temp := rfl
@[simp] theorem State.dropPres_tValid : s.dropPres.tValid = s.tValid := rfl
@[simp] theorem State.dropPres_pres : s.dropPres.pres = s.pres := rfl
@[simp] theorem State.dropPres_pValid : s.dropPres.pValid = false := rfl
@[simp] theorem State.dropPres_faultFirst : s.dropPres.faultFirst = s.faultFirst := rfl
@[simp] theorem State.dropPres_faultMask : s.dropPres.faultMask = s.faultMask := rfl
@[simp] theorem State.dropPres_inputs : s.dropPres.inputs = s.inputs := rfl

/-! ### raiseFault -/

@[simp] theorem raiseFault_cal (c : FaultCode) : (raiseFault c s).cal = s.cal := rfl
@[simp] theorem raiseFault_loaded (c : FaultCode) : (raiseFault c s).loaded = s.loaded := rfl
@[simp] theorem raiseFault_oss (c : FaultCode) : (raiseFault c s).oss = s.oss := rfl
@[simp] theorem raiseFault_ut (c : FaultCode) : (raiseFault c s).ut = s.ut := rfl
@[simp] theorem raiseFault_utValid (c : FaultCode) : (raiseFault c s).utValid = s.utValid := rfl
@[simp] theorem raiseFault_up (c : FaultCode) : (raiseFault c s).up = s.up := rfl
@[simp] theorem raiseFault_upValid (c : FaultCode) : (raiseFault c s).upValid = s.upValid := rfl
@[simp] theorem raiseFault_temp (c : FaultCode) : (raiseFault c s).temp = s.temp := rfl
@[simp] theorem raiseFault_tValid (c : FaultCode) : (raiseFault c s).tValid = s.tValid := rfl
@[simp] theorem raiseFault_pres (c : FaultCode) : (raiseFault c s).pres = s.pres := rfl
@[simp] theorem raiseFault_pValid (c : FaultCode) : (raiseFault c s).pValid = s.pValid := rfl
@[simp] theorem raiseFault_faultFirst (c : FaultCode) : (raiseFault c s).faultFirst = if s.faultFirst = 0 then c.first else s.faultFirst := rfl
@[simp] theorem raiseFault_faultMask (c : FaultCode) : (raiseFault c s).faultMask = s.faultMask ||| c.maskBit := rfl
@[simp] theorem raiseFault_inputs (c : FaultCode) : (raiseFault c s).inputs = s.inputs := rfl

/-! ### resetBlock -/

@[simp] theorem State.resetBlock_cal : s.resetBlock.cal = Vector.replicate 11 0 := rfl
@[simp] theorem State.resetBlock_loaded : s.resetBlock.loaded = 0 := rfl
@[simp] theorem State.resetBlock_oss : s.resetBlock.oss = 0 := rfl
@[simp] theorem State.resetBlock_ut : s.resetBlock.ut = 0 := rfl
@[simp] theorem State.resetBlock_utValid : s.resetBlock.utValid = false := rfl
@[simp] theorem State.resetBlock_up : s.resetBlock.up = 0 := rfl
@[simp] theorem State.resetBlock_upValid : s.resetBlock.upValid = false := rfl
@[simp] theorem State.resetBlock_temp : s.resetBlock.temp = 0 := rfl
@[simp] theorem State.resetBlock_tValid : s.resetBlock.tValid = false := rfl
@[simp] theorem State.resetBlock_pres : s.resetBlock.pres = 0 := rfl
@[simp] theorem State.resetBlock_pValid : s.resetBlock.pValid = false := rfl
@[simp] theorem State.resetBlock_faultFirst : s.resetBlock.faultFirst = 0 := rfl
@[simp] theorem State.resetBlock_faultMask : s.resetBlock.faultMask = 0 := rfl
@[simp] theorem State.resetBlock_inputs : s.resetBlock.inputs = s.inputs := rfl

end Sys2Proof.Machine
end

