-- ==== Sys2Proof/Laws/Ops.lean ====
section
/-! SUPPORT. One lemma per shared operation, saying all it can do; proofs cite these instead of unfolding. -/

namespace Sys2Proof.Machine

/-! ### Taking a fault -/

@[simp] theorem FaultCode.code_lt (c : FaultCode) : c.code < 7 := by cases c <;> decide

@[simp] theorem FaultCode.code_pos (c : FaultCode) : 0 < c.code := by cases c <;> decide

@[simp] theorem FaultCode.first_ne_zero (c : FaultCode) : c.first ≠ 0 := by cases c <;> decide

theorem FaultCode.first_toNat (c : FaultCode) : c.first.toNat = c.code := by cases c <;> rfl

theorem FaultCode.maskBit_getLsbD (c : FaultCode) (b : Nat) : c.maskBit.getLsbD b = decide (b = c.code) := by
  have := c.code_lt
  by_cases h : b = c.code
  · subst h; simp [FaultCode.maskBit]
  · simp [FaultCode.maskBit, BitVec.getLsbD_twoPow, h, Ne.symm h]

/-- Recording a fault changes the two fault registers and nothing else. -/
theorem raiseFault_frame (c : FaultCode) (s : State) :
    { raiseFault c s with faultMask := s.faultMask, faultFirst := s.faultFirst } = s := rfl

/-! ### The outcome of a command -/

@[simp] theorem stateAfter_next (t s : State) : stateAfter (.next t) s = t := rfl

/-- CMPT answers one of two states. -/
theorem execCmpt_cases (s : State) :
    (∃ c, s.cmptOutcome = .error c ∧ execCmpt s = .next (faultCmpt c s)) ∨
    (∃ t10, s.cmptOutcome = .ok t10 ∧ execCmpt s = .next (s.putTemp t10).consumeUt) := by
  unfold execCmpt
  cases h : s.cmptOutcome with
  | error c => exact .inl ⟨c, rfl, rfl⟩
  | ok t10 => exact .inr ⟨t10, rfl, rfl⟩

/-- CMPP answers one of two states. -/
theorem execCmpp_cases (s : State) :
    (∃ c, s.cmppOutcome = .error c ∧ execCmpp s = .next (faultCmpp c s)) ∨
    (∃ p, s.cmppOutcome = .ok p ∧ execCmpp s = .next ((s.putPres p).consumeUt).dropUp) := by
  unfold execCmpp
  cases h : s.cmppOutcome with
  | error c => exact .inl ⟨c, rfl, rfl⟩
  | ok p => exact .inr ⟨p, rfl, rfl⟩

/-- Where CMPT succeeds, its checks have passed (42_compensation.md R156). -/
theorem cmptOutcome_ok {s : State} {t10 : Int} (h : s.cmptOutcome = .ok t10) :
    s.calValid = true ∧ s.utValid = true ∧ s.tempResult = .ok t10 := by
  unfold State.cmptOutcome at h
  split at h
  · cases h
  · split at h
    · cases h
    · simp_all

/-- Where CMPP succeeds, its checks have passed (42_compensation.md R157). -/
theorem cmppOutcome_ok {s : State} {p : Int} (h : s.cmppOutcome = .ok p) :
    s.calValid = true ∧ s.utValid = true ∧ s.upValid = true ∧ s.presResult = .ok p := by
  unfold State.cmppOutcome at h
  split at h
  · cases h
  · split at h
    · cases h
    · split at h
      · cases h
      · simp_all

theorem calValid_iff (s : State) : s.calValid = true ↔ s.loaded = 0x7FF := by
  simp [State.calValid, Config.allLoaded]

/-! ### Words, moves and steps -/

theorem perform_ok {w : Word} {i : Instr} (h : decode w = .ok i) (s : State) : perform w s = exec i s := by
  simp [perform, h]

theorem perform_error {w : Word} {e : Illegal} (h : decode w = .error e) (s : State) :
    perform w s = .next (raiseFault .illegalCommand s) := by
  simp [perform, h]

/-- Performing a word is its command, or ILLEGAL_COMMAND. -/
theorem perform_cases (w : Word) (s : State) :
    (∃ i, decode w = .ok i ∧ perform w s = exec i s) ∨
    (∃ e, decode w = .error e ∧ perform w s = .next (raiseFault .illegalCommand s)) := by
  cases h : decode w with
  | ok i => exact .inl ⟨i, rfl, perform_ok h s⟩
  | error e => exact .inr ⟨e, rfl, perform_error h s⟩

@[simp] theorem issueAll_nil (s : State) : issueAll [] s = s := rfl

@[simp] theorem issueAll_cons (w : Word) (ws : List Word) (s : State) :
    issueAll (w :: ws) s = issueAll ws (issue w s) := rfl

theorem issueAll_append (us ws : List Word) (s : State) : issueAll (us ++ ws) s = issueAll ws (issueAll us s) := by
  simp [issueAll, List.foldl_append]

/-- What every word keeps, a run of words keeps. -/
theorem issueAll_induct (P : State → Prop) (ws : List Word) (h : ∀ w ∈ ws, ∀ s, P s → P (issue w s)) {s : State}
    (hs : P s) : P (issueAll ws s) := by
  induction ws generalizing s with
  | nil => exact hs
  | cons w ws ih =>
    exact ih (fun v hv => h v (List.mem_cons_of_mem w hv)) (h w List.mem_cons_self s hs)

/-- A step is one of three things. -/
theorem step_cases (s : State) :
    (s.inputs = [] ∧ step s = .next s) ∨
    (∃ w rest, s.inputs = .command w :: rest ∧ step s = perform w { s with inputs := rest }) ∨
    (∃ rest, s.inputs = .reset :: rest ∧ step s = .next { State.reset with inputs := rest }) := by
  unfold step stepHost State.takeInput
  cases h : s.inputs with
  | nil => exact .inl ⟨rfl, rfl⟩
  | cons i rest =>
    cases i with
    | command w => exact .inr (.inl ⟨w, rest, rfl, rfl⟩)
    | reset => exact .inr (.inr ⟨rest, rfl, rfl⟩)

end Sys2Proof.Machine
end

