-- ==== Sys2Proof/Laws/PerInstr.lean ====
section
/-! SUPPORT. Statements about every instruction as syntax, one lemma per constructor. -/

namespace Sys2Proof.Laws.EncodeMatchesRow

/-- The word of a well-formed instruction matches the row of 30_encoding.md R82 that bears its mnemonic. -/
def Statement (i : Instr) : Prop :=
  i.WellFormed → ∀ r ∈ opcodeRows, r.mnemonic = i.mnemonic → r.matches (encode i) = true

theorem calw (k : BitVec 4) (msb lsb : Byte) : Statement (.calw k msb lsb) := by
  intro hk r hr hm
  have hk' : k.toNat ≤ 10 := by simpa [Instr.WellFormed, Instr.wf, calIndexLegal] using hk
  simp only [opcodeRows, List.mem_cons, List.not_mem_nil, or_false] at hr
  rcases hr with rfl | rfl | rfl | rfl | rfl | rfl | rfl | rfl <;> simp [Instr.mnemonic] at hm
  have hmask : packFields 0x1 k 0 msb lsb &&& 0xF0FF0000 = 0x10000000 := by
    apply BitVec.eq_of_getLsbD_eq
    intro i hi
    simp only [packFields, BitVec.getLsbD_and, BitVec.getLsbD_append]
    interval_cases i <;> simp
  simpa [OpcodeRow.matches, encode, hk'] using hmask

theorem calclr : Statement .calclr := by unfold Statement; decide

theorem setoss (oss : BitVec 2) : Statement (.setoss oss) := by unfold Statement; revert oss; decide

theorem ldut (msb lsb : Byte) : Statement (.ldut msb lsb) := by
  intro _ r hr hm
  simp only [opcodeRows, List.mem_cons, List.not_mem_nil, or_false] at hr
  rcases hr with rfl | rfl | rfl | rfl | rfl | rfl | rfl | rfl <;> simp [Instr.mnemonic] at hm
  have hmask : packFields 0x4 0 0 msb lsb &&& 0xFFFF0000 = 0x40000000 := by
    apply BitVec.eq_of_getLsbD_eq
    intro i hi
    simp only [packFields, BitVec.getLsbD_and, BitVec.getLsbD_append]
    interval_cases i <;> simp
  simpa [OpcodeRow.matches, encode] using hmask

theorem ldup (msb lsb xlsb : Byte) : Statement (.ldup msb lsb xlsb) := by
  intro _ r hr hm
  simp only [opcodeRows, List.mem_cons, List.not_mem_nil, or_false] at hr
  rcases hr with rfl | rfl | rfl | rfl | rfl | rfl | rfl | rfl <;> simp [Instr.mnemonic] at hm
  have hmask : packFields 0x5 0 msb lsb xlsb &&& 0xFF000000 = 0x50000000 := by
    apply BitVec.eq_of_getLsbD_eq
    intro i hi
    simp only [packFields, BitVec.getLsbD_and, BitVec.getLsbD_append]
    interval_cases i <;> simp
  simpa [OpcodeRow.matches, encode] using hmask

theorem cmpt : Statement .cmpt := by unfold Statement; decide

theorem cmpp : Statement .cmpp := by unfold Statement; decide

theorem srst : Statement .srst := by unfold Statement; decide

end Sys2Proof.Laws.EncodeMatchesRow
end

