-- ==== Sys2Proof/Tests/Slice0.lean ====
section
/-! SUPPORT. Tests of the model. Expected values are those of spec/95_test_vectors.md (the section is named at each) or of
the encoding table of 30_encoding.md R82, never the model's own. Then one witness a statement that has hypotheses. -/

namespace Sys2Proof.Tests

open Sys2Proof.Machine

/-! ### WellFormed: an ill-formed term is refused -/

theorem test_wf_refuses_cal_index_11 : ¬ (Instr.calw 11 0 0).WellFormed := by decide
theorem test_wf_refuses_cal_index_15 : ¬ (Instr.calw 15 0xFF 0xFF).WellFormed := by decide
theorem test_wf_accepts_cal_index_10 : (Instr.calw 10 0x0B 0x34).WellFormed := by decide

/-! ### Decode: one word a command, written out bit by bit (R80, R82), and illegal words (V-G) -/

-- OP 0001, SEL 1010, D2 0, D1 0x0B, D0 0x34.
theorem test_decode_calw : decode 0b00011010000000000000101100110100 = .ok (.calw 10 0x0B 0x34) := by decide
theorem test_decode_calclr : decode 0b00100000000000000000000000000000 = .ok .calclr := by decide
-- OP 0011, SEL 0011.
theorem test_decode_setoss : decode 0b00110011000000000000000000000000 = .ok (.setoss 3) := by decide
-- OP 0100, D1 0x6C, D0 0xFA.
theorem test_decode_ldut : decode 0b01000000000000000110110011111010 = .ok (.ldut 0x6C 0xFA) := by decide
-- OP 0101, D2 0x5D, D1 0x23, D0 0x00.
theorem test_decode_ldup : decode 0b01010000010111010010001100000000 = .ok (.ldup 0x5D 0x23 0x00) := by decide
theorem test_decode_cmpt : decode 0b01100000000000000000000000000000 = .ok .cmpt := by decide
theorem test_decode_cmpp : decode 0b01110000000000000000000000000000 = .ok .cmpp := by decide
-- OP 1111, D0 0xB6.
theorem test_decode_srst : decode 0b11110000000000000000000010110110 = .ok .srst := by decide
theorem test_decode_zero_word_illegal : decode 0 = .error .unknownOpcode := by decide
theorem test_decode_cal_index_11_illegal : decode 0x1B000000 = .error .calIndex := by decide
theorem test_decode_setoss_sel_bit_illegal : decode 0x34000000 = .error .reservedField := by decide
theorem test_decode_srst_key_illegal : decode 0xF00000B7 = .error .resetKey := by decide
theorem test_decode_table_word : decodeTableWord 32 0x505D2300 = some (.ldup 0x5D 0x23 0x00) := by decide

/-! ### Commands, one step each -/

/-- The coefficients of V-A1. -/
def vendorCal : Vector Half 11 :=
  #v[0x0198, 0xFFB8, 0xC7D1, 0x7FE5, 0x7FF5, 0x5A71, 0x182E, 0x0004, 0x8000, 0xDDF9, 0x0B34]

/-- A calibrated block with fresh readings at oss 0. -/
def ready (ut : Half) (up : Word) : State :=
  { State.reset with cal := vendorCal, loaded := 0x7FF, ut := ut, utValid := true, up := up, upValid := true }

-- V-D, D2.
theorem test_calw_signed_pattern :
    (issue 0x1100FFB8 State.reset).readPort 0x11 = 0x0000FFB8 ∧ (issue 0x1100FFB8 State.reset).loaded = 0x002 := by
  decide
-- V-D, D9.
theorem test_calw_index_11_faults : issue 0x1B000000 State.reset = { State.reset with faultFirst := 1, faultMask := 0x02 } := by
  decide
-- V-D, D7.
theorem test_calclr_keeps_patterns :
    (issue 0x20000000 (ready 0 0)).loaded = 0 ∧ (issue 0x20000000 (ready 0 0)).readPort 0x10 = 0x00000198 := by decide
-- V-E, E1 and E17.
theorem test_setoss_status : (issue 0x33000000 State.reset).readPort 0 = 0xC0 := by decide
theorem test_setoss_drops_up_only : (issue 0x33000000 (ready 27898 23843)).readPort 0 = 0xC3 := by decide
-- V-E, E6.
theorem test_ldut_unsigned : (issue 0x4000FFFF State.reset).ut.toNat = 65535 ∧ (issue 0x4000FFFF State.reset).readPort 0 = 0x02 := by
  decide
-- V-E, E9 and E13.
theorem test_ldup_oss0 : (issue 0x505D2300 State.reset).up = 23843 := by decide
theorem test_ldup_oss3 : (issue 0x505D2300 { State.reset with oss := 3 }).up = 190744 := by decide
-- V-F, F3: truncating division.
theorem test_cmpt_truncates : (issue 0x60000000 (ready 27917 0)).temp = 152 := by decide
-- V-F, F8: a negative temperature.
theorem test_cmpt_negative : (issue 0x60000000 (ready 0 0)).temp = 0xFFFFFA90 := by decide
-- V-A1.
theorem test_cmpp_reference : (issue 0x70000000 (ready 27898 23843)).pres = 69964 := by decide
-- V-F, F10: UP < b3 wraps.
theorem test_cmpp_wraps : (issue 0x70000000 (ready 27898 0)).pres = 256808 := by decide
-- V-G, G1.
theorem test_srst_clears : issue 0xF00000B6 (ready 27898 23843) = State.reset := by decide
-- V-F, F16: b4 = 0.
theorem test_cmpp_div_zero :
    (issue 0x70000000 { ready 27898 23843 with cal := vendorCal.set 3 0 }).faultMask = 0x40 := by decide
-- V-F, F12: p >= 2^31 is zero-extended; PRES_HI and PRES_LO.
theorem test_cmpp_wide_pressure :
    (issue 0x70000000 { ready 27898 23843 with cal := vendorCal.set 3 1 }).readPort 0x09 = 0x00000039 ∧
    (issue 0x70000000 { ready 27898 23843 with cal := vendorCal.set 3 1 }).readPort 0x08 = 0x00FB317C := by decide

/-! ### Steps -/

theorem test_step_runs_the_placed_word :
    step (State.reset.withFetchWord 32 0x33000000) = .next { State.reset with oss := 3 } := by rfl
theorem test_step_waits : step State.reset = .next State.reset := by rfl

/-! ### The assembler (R89, R90) -/

theorem test_assemble_line : assemble "CALW AC1, 0x01, 0x98   ; comment".toList = .ok [0x10000198] := by decide
theorem test_assemble_pseudo : assemble "CALV AC2, #-72\nLDUPV #23843, oss=0\n".toList = .ok [0x1100FFB8, 0x505D2300] := by
  decide
theorem test_assemble_range : assemble "SETOSS 4".toList = .error .outOfRange := by decide

/-! ### The host (P6): OPEN, then READP, on the mock device -/

/-- Some delays; no claim rests on their values. -/
def someDelays : Config.Delays := ⟨5, 4500, #v[4500, 7500, 13500, 25500], 10⟩

/-- The device of P6. -/
def mock : Device where
  calibration := #v[0x01, 0x98, 0xFF, 0xB8, 0xC7, 0xD1, 0x7F, 0xE5, 0x7F, 0xF5, 0x5A, 0x71, 0x18, 0x2E, 0x00, 0x04,
    0x80, 0x00, 0xDD, 0xF9, 0x0B, 0x34]
  conversion := none
  sinceReset := none
  adc := [[0x6C, 0xFA], [0x5D, 0x23, 0x00]]

/-- A calibrated world on the mock device. -/
def openWorld (script : List BusFate) : World :=
  { World.powerOn mock script with
    channel := some ⟨Config.busPath, Config.devAddr⟩
    driverOpen := true
    block := { State.reset with cal := vendorCal, loaded := 0x7FF } }

-- P6: 69964.0 and STATUS 0x11.
theorem test_readp_returns_the_pressure :
    (match (openWorld []).readPressure someDelays with
      | .returned r w => decide (r = .number 0x40F114C000000000 ∧ w.block.readPort 0 = 0x11)
      | _ => false) = true := by decide
-- P6: the read of 0xF7 fails in step 2.
theorem test_readp_failed_read_is_nan :
    (match (openWorld [.ok, .ok, .ok, .ok, .ok, .ok, .ok, .ok, .ok, .fail]).readPressure someDelays with
      | .returned r w =>
        decide (r = .nan ∧ w.block.utValid = true ∧ w.block.pValid = false ∧ w.block.upValid = false)
      | _ => false) = true := by decide
-- V-H.
theorem test_temp_to_c_rounds : tempToC 3 = .number 0x3FD3333333333334 := by decide

/-! ### Witnesses: the hypotheses of each statement hold together somewhere -/

theorem witness_reset : exec .srst (ready 1 1) = .next State.reset ∧ applyInput .reset (ready 1 1) = .next State.reset :=
  ⟨rfl, rfl⟩

theorem witness_inv : State.reset.Inv := by
  constructor <;> decide

/-- Every state the invariant's statements start from: reset takes any step. -/
theorem witness_inv_step : State.reset.Inv ∧ step (State.reset.withFetchWord 32 0x33000000) = .next { State.reset with oss := 3 } :=
  ⟨witness_inv, rfl⟩

theorem witness_read_alike : State.reset.Inv ∧ State.reset.Inv ∧ ∀ a, State.reset.readPort a = State.reset.readPort a :=
  ⟨witness_inv, witness_inv, fun _ => rfl⟩

theorem witness_status_reserved_bit : 8 ≤ 31 := by decide
theorem witness_port_reserved_up_bit : 19 ≤ 31 := by decide
theorem witness_port_unmapped : ((0x09 : Nat) < (0x0A : BitVec 8).toNat ∧ (0x0F : BitVec 8).toNat < 0x10) ∧
    0x1A < (0x1B : BitVec 8).toNat := by decide

theorem witness_decode_of_encode : (Instr.calw 10 0xFF 0xFF).WellFormed := by decide
theorem witness_encode_of_decode : decode 0x50FFFFFF = .ok (.ldup 0xFF 0xFF 0xFF) := by decide

theorem witness_illegal_words :
    decode 0x80000000 = .error .unknownOpcode ∧ fieldOp 0x00FFFFFF = 0 ∧ (fieldOp 0xE0000000).toNat = 14 ∧
    (fieldOp 0x80000000).toNat = 8 ∧
    (fieldOp 0x1B000000 = 1 ∧ 11 ≤ (fieldSel 0x1B000000).toNat) ∧ (fieldOp 0x10010000 = 1 ∧ fieldD2 0x10010000 ≠ 0) ∧
    (fieldOp 0x20000001 = 2 ∧ (0x20000001 : Word).extractLsb' 0 28 ≠ 0) ∧
    (fieldOp 0x61000000 = 6 ∧ (0x61000000 : Word).extractLsb' 0 28 ≠ 0) ∧
    (fieldOp 0x71000000 = 7 ∧ (0x71000000 : Word).extractLsb' 0 28 ≠ 0) ∧
    (fieldOp 0x34000000 = 3 ∧ 4 ≤ (fieldSel 0x34000000).toNat) ∧
    (fieldOp 0x30000001 = 3 ∧ (0x30000001 : Word).extractLsb' 0 24 ≠ 0) ∧
    (fieldOp 0x41000000 = 4 ∧ fieldSel 0x41000000 ≠ 0) ∧ (fieldOp 0x40010000 = 4 ∧ fieldD2 0x40010000 ≠ 0) ∧
    (fieldOp 0x51000000 = 5 ∧ fieldSel 0x51000000 ≠ 0) ∧ (fieldOp 0xF00000B7 = 15 ∧ (0xF00000B7 : Word) ≠ 0xF00000B6) := by
  decide

theorem witness_step_clauses :
    (State.reset.withFetchWord 32 0x60000000).inputs = .command 0x60000000 :: [] ∧ decode 0x60000000 = .ok .cmpt ∧
    (State.reset.withFetchWord 32 0).inputs = .command 0 :: [] ∧ decode 0 = .error .unknownOpcode ∧
    ({ State.reset with inputs := [.reset] }).inputs = .reset :: [] ∧ State.reset.inputs = [] := by decide

theorem witness_calw : (10 : BitVec 4).toNat ≤ 10 ∧ 10 < (11 : BitVec 4).toNat ∧
    ∀ j : Fin 11, j.val ≠ (10 : BitVec 4).toNat → ({ State.reset with loaded := 0x3FF }).loaded.getLsbD j.val = true := by
  decide

theorem witness_operand_words : fieldOp 0x1A00FFFF = 1 ∧ fieldOp 0x33000000 = 3 ∧ fieldOp 0x4000FFFF = 4 ∧
    fieldOp 0x50FFFFFF = 5 ∧ (fieldOp 0x20000001 = 2 ∧ (0x20000001 : Word) ≠ 0x20000000) := by decide

theorem witness_calclr : ∀ w ∈ [(0x60000000 : Word)], ¬ IsCalw (BitVec.ofNat 4 0) w := by
  rintro w hw ⟨a, b, h⟩
  have h6 : decode 0x60000000 = .ok .cmpt := by decide
  simp only [List.mem_cons, List.not_mem_nil, or_false] at hw
  rw [hw, h6] at h
  cases h

theorem witness_ldup_oss0 : State.reset.oss = 0 := by decide

theorem witness_fault_held : (issue 0x60000000 State.reset).faultFirst ≠ 0 ∧ (issue 0x60000000 State.reset).faultMask ≠ 0 ∧
    (0x60000000 : Word) ≠ 0xF00000B6 := by decide

theorem witness_srst_other_word : fieldOp 0xF10000B6 = 0xF ∧ (0xF10000B6 : Word) ≠ 0xF00000B6 := by decide

theorem witness_cmpt_success :
    (ready 27898 23843).loaded = 0x7FF ∧ (ready 27898 23843).utValid = true ∧
    Int.fdiv ((((ready 27898 23843).ut.toNat : Int) - ((ready 27898 23843).cal[5].toNat : Int)) *
      ((ready 27898 23843).cal[4].toNat : Int)) 32768 + (ready 27898 23843).cal[10].toInt ≠ 0 := by decide

/-- V-F, F15: MD = -4743 makes the divisor 0. -/
def divZero : State := { ready 27898 23843 with cal := vendorCal.set 10 0xED79 }

theorem witness_cmpt_faults :
    State.reset.loaded ≠ 0x7FF ∧
    (({ ready 0 0 with utValid := false }).loaded = 0x7FF ∧ ({ ready 0 0 with utValid := false }).utValid = false) ∧
    (divZero.loaded = 0x7FF ∧ divZero.utValid = true ∧
      Int.fdiv (((divZero.ut.toNat : Int) - (divZero.cal[5].toNat : Int)) * (divZero.cal[4].toNat : Int)) 32768 +
        divZero.cal[10].toInt = 0) := by decide

/-- The two divisors of a CMPP, in the statement's words. -/
def divisorsOf (s : State) : Int × Int :=
  let x1 := Int.fdiv (((s.ut.toNat : Int) - (s.cal[5].toNat : Int)) * (s.cal[4].toNat : Int)) 32768
  let b6 := x1 + Int.tdiv (s.cal[9].toInt * 2048) (x1 + s.cal[10].toInt) - 4000
  let sq := Int.fdiv (b6 * b6) 4096
  let x3' := Int.fdiv (Int.fdiv (s.cal[2].toInt * b6) 8192 + Int.fdiv (s.cal[6].toInt * sq) 65536 + 2) 4
  (x1 + s.cal[10].toInt,
    Int.fdiv ((s.cal[3].toNat : Int) * ((x3' + 32768) % 4294967296) % 4294967296) 32768)

theorem witness_cmpp_success :
    (ready 27898 23843).loaded = 0x7FF ∧ (ready 27898 23843).utValid = true ∧ (ready 27898 23843).upValid = true ∧
    (divisorsOf (ready 27898 23843)).1 ≠ 0 ∧ (divisorsOf (ready 27898 23843)).2 ≠ 0 := by decide

/-- V-F, F16: AC4 = 0 makes b4 = 0. -/
def divZeroPres : State := { ready 27898 23843 with cal := vendorCal.set 3 0 }

theorem witness_cmpp_faults :
    State.reset.loaded ≠ 0x7FF ∧
    (({ ready 0 0 with utValid := false }).loaded = 0x7FF ∧ ({ ready 0 0 with utValid := false }).utValid = false) ∧
    (({ ready 0 0 with upValid := false }).loaded = 0x7FF ∧ ({ ready 0 0 with upValid := false }).utValid = true ∧
      ({ ready 0 0 with upValid := false }).upValid = false) ∧
    (divZero.loaded = 0x7FF ∧ divZero.utValid = true ∧ divZero.upValid = true ∧ (divisorsOf divZero).1 = 0) ∧
    (divZeroPres.loaded = 0x7FF ∧ divZeroPres.utValid = true ∧ divZeroPres.upValid = true ∧
      (divisorsOf divZeroPres).1 ≠ 0 ∧ (divisorsOf divZeroPres).2 = 0) := by
  decide

theorem witness_faulting_word : faultOf 0x60000000 State.reset = some .calNotLoaded ∧ faultOf 0 State.reset = some .illegalCommand := by
  decide

theorem witness_causes : cmptCause State.reset .calNotLoaded ∧ cmptCause State.reset .utNotLoaded ∧
    cmppCause State.reset .upNotLoaded ∧ cmptCause divZero .divZeroTemp := by
  simp only [cmptCause, cmppCause]; decide

theorem witness_no_cause : ∀ c, ¬ cmptCause (ready 27898 23843) c := by
  intro c; cases c <;> simp only [cmptCause] <;> decide

theorem witness_no_cause_cmpp : ∀ c, ¬ cmppCause (ready 27898 23843) c := by
  intro c
  cases c with
  | divZeroPres =>
    rintro ⟨b5, h1, h2⟩
    have h3 : stageB5 (coeffs (ready 27898 23843).cal) (zext (ready 27898 23843).ut) = .ok 2400 := by decide
    rw [h3] at h1
    cases h1
    revert h2
    decide
  | _ => simp only [cmppCause]; decide

theorem witness_fault_run : ∀ w ∈ [0x60000000, 0x60000000, (0 : Word)], decode w ≠ .ok .srst := by
  intro w hw
  simp only [List.mem_cons, List.not_mem_nil, or_false] at hw
  rcases hw with rfl | rfl | rfl <;> decide
theorem witness_sticky : decode 0x60000000 ≠ .ok .srst ∧ (issue 0x60000000 State.reset).faultFirst ≠ 0 ∧
    (issue 0x60000000 State.reset).faultMask.getLsbD 2 = true ∧ decode 0xF00000B6 = .ok .srst := by decide

theorem witness_loaded_writers : IsCalw (BitVec.ofNat 4 10) 0x1A000B34 ∧ ClearsLoaded 0x20000000 ∧ ClearsLoaded 0xF00000B6 ∧
    ¬ IsCalw (BitVec.ofNat 4 0) 0x60000000 ∧ ¬ ClearsLoaded 0x60000000 := by
  refine ⟨⟨0x0B, 0x34, by decide⟩, .inl (by decide), .inr (by decide), ?_, ?_⟩
  · rintro ⟨a, b, h⟩
    have h' : decode 0x60000000 = .ok .cmpt := by decide
    rw [h'] at h
    cases h
  · rintro (h | h) <;> revert h <;> decide

theorem witness_writers : (issue 0x10000198 State.reset).cal[0] ≠ State.reset.cal[0] ∧
    (issue 0x33000000 State.reset).oss ≠ State.reset.oss ∧ (issue 0x60000000 (ready 27898 0)).temp ≠ (ready 27898 0).temp ∧
    (issue 0x70000000 (ready 27898 23843)).pres ≠ (ready 27898 23843).pres := by decide

/-- The eleven CALW words of V-A1. -/
def vendorWords : List Word :=
  [0x10000198, 0x1100FFB8, 0x1200C7D1, 0x13007FE5, 0x14007FF5, 0x15005A71, 0x1600182E, 0x17000004, 0x18008000, 0x1900DDF9,
    0x1A000B34]

theorem witness_completeness : (∀ w ∈ vendorWords, decode w ≠ .ok .calclr ∧ decode w ≠ .ok .srst) ∧
    (∀ k : Fin 11, IsCalw (BitVec.ofNat 4 k.val) (vendorWords[k.val]'(by simp [vendorWords]))) := by
  constructor
  · intro w hw
    simp only [vendorWords, List.mem_cons, List.not_mem_nil, or_false] at hw
    rcases hw with rfl | rfl | rfl | rfl | rfl | rfl | rfl | rfl | rfl | rfl | rfl <;> decide
  intro k
  fin_cases k
  · exact ⟨0x01, 0x98, by decide⟩
  · exact ⟨0xFF, 0xB8, by decide⟩
  · exact ⟨0xC7, 0xD1, by decide⟩
  · exact ⟨0x7F, 0xE5, by decide⟩
  · exact ⟨0x7F, 0xF5, by decide⟩
  · exact ⟨0x5A, 0x71, by decide⟩
  · exact ⟨0x18, 0x2E, by decide⟩
  · exact ⟨0x00, 0x04, by decide⟩
  · exact ⟨0x80, 0x00, by decide⟩
  · exact ⟨0xDD, 0xF9, by decide⟩
  · exact ⟨0x0B, 0x34, by decide⟩

/-- A run without CALW, SRST, LDUT or LDUP: a CMPT and a CALCLR; and a missing coefficient. -/
theorem witness_missing_coefficient :
    (∀ w ∈ [(0x60000000 : Word), 0x20000000], ¬ IsCalw (BitVec.ofNat 4 8) w ∧ decode w ≠ .ok .srst) ∧
    State.reset.loaded.getLsbD 8 = false := by
  refine ⟨?_, by decide⟩
  have h6 : decode 0x60000000 = .ok .cmpt := by decide
  have h2 : decode 0x20000000 = .ok .calclr := by decide
  intro w hw
  simp only [List.mem_cons, List.not_mem_nil, or_false] at hw
  rcases hw with rfl | rfl
  · refine ⟨?_, by decide⟩
    rintro ⟨a, b, h⟩
    rw [h6] at h
    cases h
  · refine ⟨?_, by decide⟩
    rintro ⟨a, b, h⟩
    rw [h2] at h
    cases h

theorem witness_reading_consumed : decode 0x60000000 = .ok .cmpt ∧ faultOf 0x60000000 (ready 27898 23843) = none ∧
    faultOf 0x70000000 (ready 27898 23843) = none ∧
    (∀ v ∈ [(0x60000000 : Word)], ∀ msb lsb, decode v ≠ .ok (.ldut msb lsb)) := by
  refine ⟨by decide, by decide, by decide, ?_⟩
  intro v hv a b h
  have h6 : decode 0x60000000 = .ok .cmpt := by decide
  simp only [List.mem_cons, List.not_mem_nil, or_false] at hv
  rw [hv, h6] at h
  cases h

/-- A CMPP that raises no fault, then another without an LDUP. -/
theorem witness_pressure_consumed : decode 0x70000000 = .ok .cmpp ∧ faultOf 0x70000000 (ready 27898 23843) = none ∧
    (∀ v ∈ [(0x60000000 : Word)], ∀ a b c, decode v ≠ .ok (.ldup a b c)) := by
  refine ⟨by decide, by decide, ?_⟩
  intro v hv a b c h
  have h6 : decode 0x60000000 = .ok .cmpt := by decide
  simp only [List.mem_cons, List.not_mem_nil, or_false] at hv
  rw [hv, h6] at h
  cases h

theorem witness_setoss_then_no_ldup : decode 0x33000000 = .ok (.setoss 3) ∧
    (∀ v ∈ [(0x70000000 : Word)], ∀ a b c, decode v ≠ .ok (.ldup a b c)) := by
  refine ⟨by decide, ?_⟩
  intro v hv a b c h
  have h7 : decode 0x70000000 = .ok .cmpp := by decide
  simp only [List.mem_cons, List.not_mem_nil, or_false] at hv
  rw [hv, h7] at h
  cases h

theorem witness_tdiv : (7 : Int) ≠ 0 ∧ 0 < tdiv (-7) (-2) ∧ tdiv (-7) 2 < 0 := by decide
theorem witness_stages : stageDen (coeffs vendorCal) 27898 ≠ 0 ∧ stageB5 (coeffs vendorCal) (zext (27898 : Half)) = .ok 2400 := by
  decide

theorem witness_mb : (∃ t, exec (.calw 8 0x80 0x00) State.reset = .next t) ∧ State.reset.loaded.getLsbD 8 = false ∧
    (∃ t, exec .cmpt (ready 27898 23843) = .next t ∧ t.tValid = true) ∧
    ∃ t, exec .cmpp (ready 27898 23843) = .next t ∧ t.pValid = true :=
  ⟨⟨_, rfl⟩, by decide, ⟨_, rfl, by decide⟩, ⟨_, rfl, by decide⟩⟩

/-- Two calibrated states that differ in MB and in an earlier result. -/
theorem witness_same_inputs :
    (∀ k : Fin 11, k.val ≠ 8 → (ready 27898 23843).cal[k] = (vendorCal.set 8 5)[k]) ∧
    ({ ready 27898 23843 with cal := vendorCal.set 8 5, temp := 7 }).loaded = 0x7FF ∧
    ({ ready 27898 23843 with cal := vendorCal.set 8 5, temp := 7 }).upValid = true := by decide

theorem witness_assembly_ranges : (10 ≤ 10 ∧ 0xFF ≤ 0xFF) ∧ 10 < 11 ∧ 0xFF < 0x100 ∧ 3 ≤ 3 ∧ 3 < 4 := by decide

theorem witness_pseudo_ranges :
    (if coeffSigned 1 then -32768 ≤ (-32768 : Int) ∧ (-32768 : Int) ≤ 32767 else 0 ≤ (-32768 : Int) ∧ (-32768 : Int) ≤ 65535) ∧
    (if coeffSigned 3 then -32768 ≤ (65535 : Int) ∧ (65535 : Int) ≤ 32767 else 0 ≤ (65535 : Int) ∧ (65535 : Int) ≤ 65535) ∧
    ¬ (if coeffSigned 3 then -32768 ≤ (-1 : Int) ∧ (-1 : Int) ≤ 32767 else 0 ≤ (-1 : Int) ∧ (-1 : Int) ≤ 65535) ∧
    (0 ≤ (65535 : Int) ∧ (65535 : Int) ≤ 65535) ∧ (65535 : Int) < 65536 ∧
    (0 ≤ (524287 : Int) ∧ (524287 : Int) < 2 ^ (16 + (3 : BitVec 2).toNat)) ∧ (2 : Int) ^ (16 + 0) ≤ 65536 := by decide

/-- The error clauses: index 11; 21 and 23 bytes; a byte of 256 among 22. -/
theorem witness_pseudo_errors : 10 < 11 ∧ (List.replicate 21 0).length ≠ 22 ∧ (List.replicate 23 0).length ≠ 22 ∧
    (List.replicate 21 0 ++ [256]).length = 22 ∧ ∃ b ∈ List.replicate 21 0 ++ [256], 0xFF < b := by decide

theorem witness_ready : (openWorld []).Ready someDelays := by
  refine ⟨by decide, by decide, by decide, by decide, by decide⟩

/-- Three registers of the mock's calibration that read a negative first byte and stay so: 0xAC, 0xAD, 0xAE. -/
theorem witness_registers_read : (openWorld []).channel.isSome = true ∧ (openWorld []).script = [] ∧
    (openWorld []).device.Reads someDelays 0xAC 0xFF ∧ (openWorld []).device.Reads someDelays (0xAC + 1) 0xB8 ∧
    (openWorld []).device.Reads someDelays (0xAC + 2) 0xC7 :=
  have h : mock.started someDelays = true := by decide
  ⟨by decide, by decide, Device.reads_calibration h 2 (by decide), Device.reads_calibration h 3 (by decide),
    Device.reads_calibration h 4 (by decide)⟩

theorem witness_closed : (World.powerOn mock []).channel = none ∧ (World.powerOn mock []).driverOpen = false := by decide

theorem witness_failed_trigger : (openWorld [.fail]).driverOpen = true ∧ (openWorld [.fail]).channel.isSome = true ∧
    (openWorld [.fail]).script = .fail :: [] := by decide

theorem witness_failed_second_trigger : (openWorld (List.replicate 5 .ok ++ [.fail])).driverOpen = true ∧
    (openWorld (List.replicate 5 .ok ++ [.fail])).channel.isSome = true ∧
    (openWorld (List.replicate 5 .ok ++ [.fail])).script = List.replicate 5 .ok ++ .fail :: [] := by decide

theorem witness_failed_result_read : ∀ n ∈ [1, 4, 6, 11], (openWorld (List.replicate n .ok ++ [.fail])).driverOpen = true ∧
    (openWorld (List.replicate n .ok ++ [.fail])).channel.isSome = true ∧
    (openWorld (List.replicate n .ok ++ [.fail])).script = List.replicate n .ok ++ .fail :: [] := by decide

theorem witness_open : (World.powerOn mock []).script = [] ∧ (World.powerOn mock []).device.started someDelays = true := by
  decide

/-- From a mask that is not clear: a LOADCAL that succeeds, and one whose first bus step fails. -/
theorem witness_loadcal_clears : (openWorld []).block.loaded ≠ 0 ∧
    (match (openWorld []).loadCal someDelays with | .returned b _ => b | _ => false) = true ∧
    (match (openWorld [.fail]).loadCal someDelays with
      | .returned b w => !b && decide (w.block.loaded = 0x7FE)
      | _ => false) = true := by decide

theorem witness_loadcal : (World.powerOn mock []).block.loaded = 0 ∧
    (match (World.powerOn mock []).loadCal someDelays with | .returned b _ => !b | _ => false) = true ∧
    (match (openWorld []).resetDevice someDelays with | .returned b _ => b | _ => false) = true := by decide

theorem witness_readt : (openWorld []).device.adc = [0x6C, 0xFA] :: [[0x5D, 0x23, 0x00]] ∧
    (openWorld []).block.loaded = 0x7FF ∧
    tempOf (coeffs (openWorld []).block.cal) (zext ((0x6C : Byte) ++ (0xFA : Byte))) = .ok 150 := by decide

theorem witness_readp : (openWorld []).device.adc = [0x6C, 0xFA] :: [0x5D, 0x23, 0x00] :: [] ∧
    (openWorld []).block.oss = 0 ∧
    presOf (coeffs (openWorld []).block.cal) (zext ((0x6C : Byte) ++ (0xFA : Byte)))
      (zext ((0x5D : Byte) ++ (0x23 : Byte))) 0 = .ok 69964 := by decide

theorem witness_number_returned :
    (match (openWorld []).readTemperature someDelays with
      | .returned r _ => decide (r = .number 0x402E000000000000)
      | _ => false) = true ∧
    (match (openWorld []).readPressure someDelays with
      | .returned r _ => decide (r = .number 0x40F114C000000000)
      | _ => false) = true := by
  decide

theorem witness_exact_pressure : -(2 ^ 53) < (69964 : Long).toInt ∧ (69964 : Long).toInt < 2 ^ 53 := by decide

end Sys2Proof.Tests
end

section
/-! PROOFS. The laws of the two operators of 00_scope.md R9 and 42_compensation.md R142. -/

namespace Sys2Proof.Machine

/-- `asr x n` is the floor of `x / 2 ^ n`. -/
theorem asr_floor (x : Int) (n : Nat) : asr x n * 2 ^ n ≤ x ∧ x < (asr x n + 1) * 2 ^ n :=
  have hpow : (0 : Int) < 2 ^ n := by positivity
  ⟨Int.ediv_mul_le x hpow.ne', Int.lt_ediv_add_one_mul_self x hpow⟩

theorem tdiv_nonpos_of_nonneg_of_nonpos {a b : Int} (ha : 0 ≤ a) (hb : b ≤ 0) : tdiv a b ≤ 0 :=
  Int.tdiv_nonpos_of_nonneg_of_nonpos ha hb

theorem tdiv_nonpos_of_nonpos_of_nonneg {a b : Int} (ha : a ≤ 0) (hb : 0 ≤ b) : tdiv a b ≤ 0 := by
  have hneg : 0 ≤ Int.tdiv (-a) b := Int.tdiv_nonneg (neg_nonneg.mpr ha) hb
  rwa [Int.neg_tdiv, neg_nonneg] at hneg

/-- A positive quotient has operands of one sign: operands of opposite signs give a quotient that is at most 0. -/
theorem pos_iff_pos_of_tdiv_pos {a b : Int} (h : 0 < tdiv a b) : 0 < a ↔ 0 < b := by
  constructor
  · intro ha
    by_contra hb
    exact h.not_ge (tdiv_nonpos_of_nonneg_of_nonpos ha.le (not_lt.mp hb))
  · intro hb
    by_contra ha
    exact h.not_ge (tdiv_nonpos_of_nonpos_of_nonneg (not_lt.mp ha) hb.le)

/-- A negative quotient has operands of opposite signs: the positive case with the divisor negated. -/
theorem pos_iff_neg_of_tdiv_neg {a b : Int} (h : tdiv a b < 0) : 0 < a ↔ b < 0 := by
  have hpos : 0 < tdiv a (-b) := by
    rw [tdiv, Int.tdiv_neg]
    exact neg_pos.mpr h
  rw [pos_iff_pos_of_tdiv_pos hpos, neg_pos]

/-- Settles O39: the floor by the positive divisor `2 ^ n`, then the magnitude and the sign of the truncating
quotient. -/
theorem shiftAndDivisionLaws : Obligations.ShiftAndDivisionLaws :=
  ⟨asr_floor, fun a b _ => ⟨Int.natAbs_tdiv a b, pos_iff_pos_of_tdiv_pos, pos_iff_neg_of_tdiv_neg⟩⟩

end Sys2Proof.Machine
end

section
/-! PROOFS. What performing a word does to the state: one constructor an outcome. Every claim of the state's writers and of
its invariant is a case analysis on it. -/

namespace Sys2Proof.Machine

/-- The state `t` that performing a word leaves from `s`, by what the word decodes to. -/
inductive Effect (s : State) : Except Illegal Instr → State → Prop
  | illegal (e : Illegal) : Effect s (.error e) (raiseFault .illegalCommand s)
  | calw {k : BitVec 4} (msb lsb : Byte) (legal : k.toNat ≤ 10) :
      Effect s (.ok (.calw k msb lsb)) ((s.setCal k.toNat (v16 msb lsb)).setLoaded k.toNat)
  | calclr : Effect s (.ok .calclr) s.clearLoaded
  | setoss (o : BitVec 2) : Effect s (.ok (.setoss o)) (s.setOss o).dropUp
  | ldut (msb lsb : Byte) : Effect s (.ok (.ldut msb lsb)) (s.latchUt (v16 msb lsb))
  | ldup (msb lsb xlsb : Byte) :
      Effect s (.ok (.ldup msb lsb xlsb)) (s.latchUp (alignUp (raw24 msb lsb xlsb) s.oss))
  | cmptFault {c : FaultCode} (outcome : s.cmptOutcome = .error c) : Effect s (.ok .cmpt) (faultCmpt c s)
  | cmptDone {t10 : Int} (outcome : s.cmptOutcome = .ok t10) : Effect s (.ok .cmpt) (s.putTemp t10).consumeUt
  | cmppFault {c : FaultCode} (outcome : s.cmppOutcome = .error c) : Effect s (.ok .cmpp) (faultCmpp c s)
  | cmppDone {p : Int} (outcome : s.cmppOutcome = .ok p) : Effect s (.ok .cmpp) (s.putPres p).consumeUt.dropUp
  | srst : Effect s (.ok .srst) s.resetBlock

/-- The decoder gives well-formed commands only: it checks the index of a CALW (30_encoding.md R83). -/
theorem decode_wellFormed {w : Word} {i : Instr} (h : decode w = .ok i) : i.WellFormed := by
  cases i with
  | calw k msb lsb =>
    unfold decode at h
    simp only at h
    split at h
    case h_1 =>
      split_ifs at h with hindex
      cases h
      exact hindex
    case h_9 => cases h
    all_goals
      split_ifs at h
      cases h
  | _ => rfl

/-- A well-formed command answers a next state, the one its effect names. -/
theorem exec_effect {i : Instr} (hi : i.WellFormed) (s : State) : ∃ t, exec i s = .next t ∧ Effect s (.ok i) t := by
  cases i with
  | calw k msb lsb => exact ⟨_, if_pos hi, .calw msb lsb (of_decide_eq_true hi)⟩
  | calclr => exact ⟨_, rfl, .calclr⟩
  | setoss o => exact ⟨_, rfl, .setoss o⟩
  | ldut msb lsb => exact ⟨_, rfl, .ldut msb lsb⟩
  | ldup msb lsb xlsb => exact ⟨_, rfl, .ldup msb lsb xlsb⟩
  | cmpt =>
    obtain ⟨c, hc, he⟩ | ⟨t10, hc, he⟩ := execCmpt_cases s
    · exact ⟨_, he, .cmptFault hc⟩
    · exact ⟨_, he, .cmptDone hc⟩
  | cmpp =>
    obtain ⟨c, hc, he⟩ | ⟨p, hc, he⟩ := execCmpp_cases s
    · exact ⟨_, he, .cmppFault hc⟩
    · exact ⟨_, he, .cmppDone hc⟩
  | srst => exact ⟨_, rfl, .srst⟩

/-- Performing any word answers a next state, the one its effect names. -/
theorem perform_effect (w : Word) (s : State) : ∃ t, perform w s = .next t ∧ Effect s (decode w) t := by
  obtain ⟨i, hd, hp⟩ | ⟨e, hd, hp⟩ := perform_cases w s
  · rw [hp, hd]
    exact exec_effect (decode_wellFormed hd) s
  · rw [hp, hd]
    exact ⟨_, rfl, .illegal e⟩

theorem issue_effect (w : Word) (s : State) : Effect s (decode w) (issue w s) := by
  obtain ⟨t, hp, ht⟩ := perform_effect w s
  rwa [issue, hp, stateAfter_next]

end Sys2Proof.Machine
end

section
/-! PROOFS. The bounds of 42_compensation.md R140 that TEMP and PRES rest on. -/

namespace Sys2Proof.Machine

theorem stageX1_bounds (cal : Vector Half 11) (ut : Half) :
    -131069 ≤ stageX1 (coeffs cal) (zext ut) ∧ stageX1 (coeffs cal) (zext ut) ≤ 131068 := by
  have hut := zext_bounds ut
  have hac5 : 0 ≤ (coeffs cal).ac5 ∧ (coeffs cal).ac5 ≤ 65535 := zext_bounds cal[4]
  have hac6 : 0 ≤ (coeffs cal).ac6 ∧ (coeffs cal).ac6 ≤ 65535 := zext_bounds cal[5]
  have hprod : |(zext ut - (coeffs cal).ac6) * (coeffs cal).ac5| ≤ 65535 * 65535 :=
    abs_mul_le (abs_le.mpr (by omega)) (abs_le.mpr (by omega))
  exact asr_bounds 15 (abs_le.mp hprod)

theorem abs_stageX2_le (cal : Vector Half 11) (ut : Int) : |stageX2 (coeffs cal) ut| ≤ 67108864 := by
  have hmc : -32768 ≤ (coeffs cal).mc ∧ (coeffs cal).mc ≤ 32767 := sext_bounds cal[9]
  exact (abs_tdiv_le _ _).trans (abs_le.mpr (by rw [shl]; omega))

theorem stageB5_ok {c : Coeffs} {ut b5 : Int} (h : stageB5 c ut = .ok b5) :
    stageDen c ut ≠ 0 ∧ b5 = stageX1 c ut + stageX2 c ut := by
  unfold stageB5 at h
  split at h
  · cases h
  · next hden => exact ⟨hden, by cases h; rfl⟩

theorem stageB5_bounds {cal : Vector Half 11} {ut : Half} {b5 : Int} (h : stageB5 (coeffs cal) (zext ut) = .ok b5) :
    -67239933 ≤ b5 ∧ b5 ≤ 67239932 := by
  obtain ⟨-, rfl⟩ := stageB5_ok h
  have hx1 := stageX1_bounds cal ut
  have hx2 := abs_le.mp (abs_stageX2_le cal (zext ut))
  omega

theorem stageT10_bounds {b5 : Int} (h : -67239933 ≤ b5 ∧ b5 ≤ 67239932) :
    -4202496 ≤ stageT10 b5 ∧ stageT10 b5 ≤ 4202496 := by
  simp only [stageT10, asr]
  omega

theorem stageX1ppp_bounds {p : Int} (h : 0 ≤ p ∧ p ≤ 4294967295) :
    0 ≤ stageX1ppp p ∧ stageX1ppp p ≤ 13048109089792 := by
  have hq : 0 ≤ asr p 8 ∧ asr p 8 ≤ 16777215 := asr_bounds 8 h
  have hsq : 0 ≤ asr p 8 * asr p 8 ∧ asr p 8 * asr p 8 ≤ 16777215 * 16777215 :=
    ⟨mul_self_nonneg _, mul_self_le_mul_self hq.1 hq.2⟩
  have hprod : 0 ≤ asr p 8 * asr p 8 * 3038 ∧ asr p 8 * asr p 8 * 3038 ≤ 855120877308611550 := by omega
  exact asr_bounds 16 hprod

theorem stageX2ppp_bounds {p : Int} (h : 0 ≤ p ∧ p ≤ 4294967295) :
    -482148352 ≤ stageX2ppp p ∧ stageX2ppp p ≤ 0 := by
  simp only [stageX2ppp, asr]
  omega

theorem stageP_bounds {p : Int} (h : 0 ≤ p ∧ p ≤ 4294967295) : -30134036 ≤ stageP p ∧ stageP p ≤ 819801785643 := by
  have hx1 := stageX1ppp_bounds h
  have hx2 := stageX2ppp_bounds h
  simp only [stageP, asr]
  omega

theorem tempOf_ok {c : Coeffs} {ut t10 : Int} (h : tempOf c ut = .ok t10) :
    ∃ b5, stageB5 c ut = .ok b5 ∧ t10 = stageT10 b5 := by
  unfold tempOf at h
  split at h
  · cases h
  · next b5 hb5 => exact ⟨b5, hb5, by cases h; rfl⟩

theorem presFromB5_ok {c : Coeffs} {b5 up p : Int} {oss : BitVec 2} (h : presFromB5 c b5 up oss = .ok p) :
    ∃ q : Word, p = stageP (s64 q) := by
  simp only [presFromB5] at h
  split at h
  · cases h
  · exact ⟨_, by cases h; rfl⟩

theorem presOf_ok {c : Coeffs} {ut up p : Int} {oss : BitVec 2} (h : presOf c ut up oss = .ok p) :
    ∃ q : Word, p = stageP (s64 q) := by
  unfold presOf at h
  split at h
  · cases h
  · exact presFromB5_ok h

theorem cmptOutcome_bounds {s : State} {t10 : Int} (h : s.cmptOutcome = .ok t10) : -4202496 ≤ t10 ∧ t10 ≤ 4202496 := by
  obtain ⟨-, -, hres⟩ := cmptOutcome_ok h
  obtain ⟨b5, hb5, rfl⟩ := tempOf_ok hres
  exact stageT10_bounds (stageB5_bounds hb5)

theorem cmppOutcome_bounds {s : State} {p : Int} (h : s.cmppOutcome = .ok p) :
    -30134036 ≤ p ∧ p ≤ 819801785643 := by
  obtain ⟨-, -, -, hres⟩ := cmppOutcome_ok h
  obtain ⟨q, rfl⟩ := presOf_ok hres
  exact stageP_bounds (s64_bounds q)

end Sys2Proof.Machine
end

section
/-! PROOFS. The invariant at reset, under every effect, and so under every step. -/

namespace Sys2Proof.Machine

/-- Settles O36: every bound of the invariant holds of zeros. -/
theorem invariantAtReset : Obligations.InvariantAtReset where
  first_legal := by decide
  mask_bit0 := rfl
  mask_of_none _ := rfl
  mask_of_first h := absurd rfl h
  up_width := by decide
  up_aligned h := nomatch h
  temp_bound := by decide
  pres_bound := by decide

namespace State.Inv

theorem withInputs {s : State} (h : s.Inv) (is : List Input) : { s with inputs := is }.Inv := { h with }

/-- Recording a fault sets its own bit, which is not bit 0, and keeps the first code. -/
theorem raiseFault {s : State} (h : s.Inv) (c : FaultCode) : (raiseFault c s).Inv where
  first_legal := by
    have hcode := c.code_lt
    have hfirst := h.first_legal
    rw [raiseFault_faultFirst]
    split
    · rw [c.first_toNat]; omega
    · exact hfirst
  mask_bit0 := by
    rw [raiseFault_faultMask, BitVec.getLsbD_or, h.mask_bit0, c.maskBit_getLsbD]
    simp [c.code_pos.ne]
  mask_of_none h0 := by
    rw [raiseFault_faultFirst] at h0
    split at h0
    · exact absurd h0 c.first_ne_zero
    · contradiction
  mask_of_first _ := by
    rw [raiseFault_faultMask, raiseFault_faultFirst, BitVec.getLsbD_or]
    split
    · simp [c.first_toNat, c.maskBit_getLsbD]
    · next hne => rw [h.mask_of_first hne, Bool.true_or]
  up_width := h.up_width
  up_aligned := h.up_aligned
  temp_bound := h.temp_bound
  pres_bound := h.pres_bound

/-- SETOSS leaves UP unusable, so the bound of the new OSS asks nothing of it (log 7). -/
theorem setOss_dropUp {s : State} (h : s.Inv) (o : BitVec 2) : (s.setOss o).dropUp.Inv :=
  { h with up_aligned := nofun }

/-- LDUP aligns UP with the OSS held (41_input.md R122). -/
theorem latchUp_alignUp {s : State} (h : s.Inv) (raw : BitVec 24) : (s.latchUp (alignUp raw s.oss)).Inv :=
  have haligned := alignUp_lt raw s.oss
  have hoss : 2 ^ (16 + s.oss.toNat) ≤ 2 ^ 19 := Nat.pow_le_pow_right (by omega) (by omega)
  { h with up_width := haligned.trans_le hoss, up_aligned := fun _ => haligned }

theorem putTemp_consumeUt {s : State} (h : s.Inv) {t10 : Int} (ht : -4202496 ≤ t10 ∧ t10 ≤ 4202496) :
    (s.putTemp t10).consumeUt.Inv :=
  have hval : (BitVec.ofInt 32 t10).toInt = t10 := by
    rw [BitVec.toInt_ofInt]
    exact Int.bmod_eq_of_le (by omega) (by omega)
  { h with temp_bound := show _ ≤ (BitVec.ofInt 32 t10).toInt ∧ (BitVec.ofInt 32 t10).toInt ≤ _ from hval.symm ▸ ht }

theorem putPres_consumeUt_dropUp {s : State} (h : s.Inv) {p : Int} (hp : -30134036 ≤ p ∧ p ≤ 819801785643) :
    (s.putPres p).consumeUt.dropUp.Inv :=
  have hval : (BitVec.ofInt 64 p).toInt = p := toInt_toS64 (by omega)
  { h with
    up_aligned := nofun
    pres_bound := show _ ≤ (BitVec.ofInt 64 p).toInt ∧ (BitVec.ofInt 64 p).toInt ≤ _ from hval.symm ▸ hp }

end State.Inv

theorem Effect.keeps_inv {s t : State} {d : Except Illegal Instr} (h : Effect s d t) (hs : s.Inv) : t.Inv := by
  cases h with
  | illegal => exact hs.raiseFault _
  | calw => exact { hs with }
  | calclr => exact { hs with }
  | setoss o => exact hs.setOss_dropUp o
  | ldut => exact { hs with }
  | ldup => exact hs.latchUp_alignUp _
  | cmptFault =>
    have hdrop : s.dropTemp.Inv := { hs with }
    exact hdrop.raiseFault _
  | cmptDone outcome => exact hs.putTemp_consumeUt (cmptOutcome_bounds outcome)
  | cmppFault =>
    have hdrop : s.dropPres.Inv := { hs with }
    exact hdrop.raiseFault _
  | cmppDone outcome => exact hs.putPres_consumeUt_dropUp (cmppOutcome_bounds outcome)
  | srst => exact State.Inv.withInputs invariantAtReset _

/-- Settles O37: a step waits, performs a word, whose effect keeps the invariant, or resets. -/
theorem stepKeepsTheInvariant : Obligations.StepKeepsTheInvariant := by
  intro s t hs hstep
  obtain ⟨-, heq⟩ | ⟨w, rest, -, heq⟩ | ⟨rest, -, heq⟩ := step_cases s <;> rw [heq] at hstep
  · cases hstep
    exact hs
  · obtain ⟨t', hp, heff⟩ := perform_effect w { s with inputs := rest }
    rw [hp] at hstep
    cases hstep
    exact heff.keeps_inv (hs.withInputs rest)
  · cases hstep
    exact State.Inv.withInputs invariantAtReset rest

end Sys2Proof.Machine
end

section
/-! PROOFS. Who writes which field: for each field, the effects that can change it. -/

namespace Sys2Proof.Machine

variable {s t : State} {d : Except Illegal Instr}

/-! ### The fault registers -/

/-- A word but SRST leaves the fault registers as they are or as recording one fault leaves them. -/
theorem Effect.faultRegisters (h : Effect s d t) (hd : d ≠ .ok .srst) :
    (t.faultFirst = s.faultFirst ∧ t.faultMask = s.faultMask) ∨
    ∃ c, t.faultFirst = (raiseFault c s).faultFirst ∧ t.faultMask = (raiseFault c s).faultMask := by
  cases h with
  | illegal => exact .inr ⟨_, rfl, rfl⟩
  | cmptFault => exact .inr ⟨_, rfl, rfl⟩
  | cmppFault => exact .inr ⟨_, rfl, rfl⟩
  | srst => exact absurd rfl hd
  | _ => exact .inl ⟨rfl, rfl⟩

theorem Effect.faultFirst_sticky (h : Effect s d t) (hd : d ≠ .ok .srst) (hs : s.faultFirst ≠ 0) :
    t.faultFirst = s.faultFirst := by
  obtain ⟨hfirst, -⟩ | ⟨c, hfirst, -⟩ := h.faultRegisters hd
  · exact hfirst
  · rw [hfirst, raiseFault_faultFirst, if_neg hs]

theorem Effect.faultMask_sticky (h : Effect s d t) (hd : d ≠ .ok .srst) {b : Nat} (hs : s.faultMask.getLsbD b = true) :
    t.faultMask.getLsbD b = true := by
  obtain ⟨-, hmask⟩ | ⟨c, -, hmask⟩ := h.faultRegisters hd
  · rwa [hmask]
  · rw [hmask, raiseFault_faultMask, BitVec.getLsbD_or, hs, Bool.true_or]

theorem issue_srst {w : Word} (hw : decode w = .ok .srst) (s : State) : issue w s = s.resetBlock := by
  rw [issue, perform_ok hw]
  rfl

/-- The read port masks bit 0 of FAULT_MASK (log 6). -/
theorem readPort_faultMask_bit0 (s : State) : (s.readPort 0x03).getLsbD 0 = false := by
  have hport : s.readPort 0x03 = (s.faultMask &&& 0x7E).setWidth 32 := rfl
  rw [hport, BitVec.getLsbD_setWidth, BitVec.getLsbD_and]
  simp

/-- Settles O28: a fault is recorded over the registers held, and only SRST's effect writes them otherwise. -/
theorem onlySrstClearsFaultRegisters : Obligations.OnlySrstClearsFaultRegisters := by
  refine ⟨fun w s hw => ⟨?_, fun b => ?_⟩, fun w s hw => ?_, readPort_faultMask_bit0⟩
  · exact (issue_effect w s).faultFirst_sticky hw
  · exact (issue_effect w s).faultMask_sticky hw
  · rw [issue_srst hw]
    exact ⟨rfl, rfl⟩

/-! ### LOADED and CAL -/

/-- A CALW's index that is not `k`, as numbers. -/
theorem toNat_ne_of_ne_ofNat {j : BitVec 4} {k : Fin 11} (h : j ≠ BitVec.ofNat 4 k.val) : j.toNat ≠ k.val := by
  intro hjk
  exact h (by rw [← hjk, BitVec.ofNat_toNat, BitVec.setWidth_eq])

theorem Effect.loaded_of_calw {k : BitVec 4} {msb lsb : Byte} (h : Effect s (.ok (.calw k msb lsb)) t) :
    t.loaded.getLsbD k.toNat = true := by
  cases h with
  | calw _ _ legal =>
    rw [State.setLoaded_loaded, BitVec.getLsbD_or, BitVec.getLsbD_twoPow]
    simp
    omega

theorem Effect.loaded_of_calclr (h : Effect s (.ok .calclr) t) : t.loaded = 0 := by
  cases h
  rfl

/-- CALW k, CALCLR and SRST aside, a word keeps LOADED bit k. -/
theorem Effect.loaded_bit_kept (h : Effect s d t) (k : Fin 11)
    (hcalw : ∀ msb lsb, d ≠ .ok (.calw (BitVec.ofNat 4 k.val) msb lsb)) (hclr : d ≠ .ok .calclr) (hsrst : d ≠ .ok .srst) :
    t.loaded.getLsbD k.val = s.loaded.getLsbD k.val := by
  cases h with
  | @calw j msb lsb =>
    have hjk : j.toNat ≠ k.val := toNat_ne_of_ne_ofNat fun hj => hcalw msb lsb (by rw [hj])
    rw [State.setLoaded_loaded, State.setCal_loaded, BitVec.getLsbD_or, BitVec.getLsbD_twoPow]
    simp [hjk]
  | calclr => exact absurd rfl hclr
  | srst => exact absurd rfl hsrst
  | _ => rfl

/-- Settles O29: the effects of CALW k, of CALCLR, of SRST, and of every other word on LOADED bit k. -/
theorem loadedBitWriters : Obligations.LoadedBitWriters := by
  refine ⟨fun s => ⟨_, rfl, rfl⟩, fun w s k => ?_⟩
  have heff := issue_effect w s
  refine ⟨?_, ?_, fun hcalw hclears => ?_⟩
  · rintro ⟨msb, lsb, hw⟩
    rw [hw] at heff
    have hk : (BitVec.ofNat 4 k.val).toNat = k.val := Nat.mod_eq_of_lt (by omega)
    exact hk ▸ heff.loaded_of_calw
  · rintro (hw | hw)
    · rw [hw] at heff
      exact heff.loaded_of_calclr
    · rw [issue_srst hw]
      rfl
  · exact heff.loaded_bit_kept k (fun msb lsb hw => hcalw ⟨msb, lsb, hw⟩) (fun hw => hclears (.inl hw))
      (fun hw => hclears (.inr hw))

theorem Effect.cal_writer (h : Effect s d t) (k : Fin 11) (hne : t.cal[k] ≠ s.cal[k]) :
    (∃ msb lsb, d = .ok (.calw (BitVec.ofNat 4 k.val) msb lsb)) ∨ d = .ok .srst := by
  cases h with
  | @calw j msb lsb =>
    by_cases hj : j = BitVec.ofNat 4 k.val
    · exact .inl ⟨msb, lsb, by rw [hj]⟩
    · refine absurd ?_ hne
      exact Vector.getElem_setIfInBounds_ne k.isLt (toNat_ne_of_ne_ofNat hj)
  | srst => exact .inr rfl
  | _ => exact absurd rfl hne

theorem Effect.oss_writer (h : Effect s d t) (hne : t.oss ≠ s.oss) : (∃ o, d = .ok (.setoss o)) ∨ d = .ok .srst := by
  cases h with
  | setoss o => exact .inl ⟨o, rfl⟩
  | srst => exact .inr rfl
  | _ => exact absurd rfl hne

/-- Settles O30: the only effects that change CAL[k], and those that change OSS. -/
theorem coefficientAndOssWriters : Obligations.CoefficientAndOssWriters := fun w s =>
  ⟨(issue_effect w s).cal_writer, (issue_effect w s).oss_writer⟩

/-! ### The results -/

theorem Effect.temp_writer (h : Effect s d t) (hne : t.temp ≠ s.temp ∨ t.tValid ≠ s.tValid) :
    d = .ok .cmpt ∨ d = .ok .srst := by
  cases h with
  | cmptFault => exact .inl rfl
  | cmptDone => exact .inl rfl
  | srst => exact .inr rfl
  | _ => exact hne.elim (absurd rfl) (absurd rfl)

theorem Effect.pres_writer (h : Effect s d t) (hne : t.pres ≠ s.pres ∨ t.pValid ≠ s.pValid) :
    d = .ok .cmpp ∨ d = .ok .srst := by
  cases h with
  | cmppFault => exact .inl rfl
  | cmppDone => exact .inl rfl
  | srst => exact .inr rfl
  | _ => exact hne.elim (absurd rfl) (absurd rfl)

/-- Settles O31: the only effects that change TEMP or T_VALID, and those that change PRES or P_VALID. -/
theorem resultWriters : Obligations.ResultWriters := fun w s =>
  ⟨(issue_effect w s).temp_writer, (issue_effect w s).pres_writer⟩

end Sys2Proof.Machine
end

section
/-! PROOFS. A raw reading once consumed or dropped stays unusable until it is loaded again, and a CMPT or CMPP then
faults. -/

namespace Sys2Proof.Machine

variable {s t : State} {d : Except Illegal Instr}

/-! ### What keeps a valid bit 0 -/

theorem Effect.utValid_stays_false (h : Effect s d t) (hd : ∀ msb lsb, d ≠ .ok (.ldut msb lsb))
    (hs : s.utValid = false) : t.utValid = false := by
  cases h with
  | ldut msb lsb => exact absurd rfl (hd msb lsb)
  | cmptDone => rfl
  | cmppDone => rfl
  | srst => rfl
  | _ => exact hs

theorem Effect.upValid_stays_false (h : Effect s d t) (hd : ∀ a b c, d ≠ .ok (.ldup a b c))
    (hs : s.upValid = false) : t.upValid = false := by
  cases h with
  | ldup a b c => exact absurd rfl (hd a b c)
  | setoss => rfl
  | cmppDone => rfl
  | srst => rfl
  | _ => exact hs

theorem issueAll_utValid_false {ws : List Word} (hws : ∀ v ∈ ws, ∀ msb lsb, decode v ≠ .ok (.ldut msb lsb))
    (hs : s.utValid = false) : (issueAll ws s).utValid = false :=
  issueAll_induct (·.utValid = false) ws (fun v hv u => (issue_effect v u).utValid_stays_false (hws v hv)) hs

theorem issueAll_upValid_false {ws : List Word} (hws : ∀ v ∈ ws, ∀ a b c, decode v ≠ .ok (.ldup a b c))
    (hs : s.upValid = false) : (issueAll ws s).upValid = false :=
  issueAll_induct (·.upValid = false) ws (fun v hv u => (issue_effect v u).upValid_stays_false (hws v hv)) hs

/-! ### A computation that raises no fault consumes its readings -/

theorem faultOf_cmpt {w : Word} {c : FaultCode} (hw : decode w = .ok .cmpt) (hc : s.cmptOutcome = .error c) :
    faultOf w s = some c := by
  simp [faultOf, hw, hc]

theorem faultOf_cmpp {w : Word} {c : FaultCode} (hw : decode w = .ok .cmpp) (hc : s.cmppOutcome = .error c) :
    faultOf w s = some c := by
  simp [faultOf, hw, hc]

theorem issue_cmpt_consumes {w : Word} (hw : decode w = .ok .cmpt) (hf : faultOf w s = none) :
    (issue w s).utValid = false := by
  have heff := issue_effect w s
  generalize issue w s = t at heff
  rw [hw] at heff
  cases heff with
  | cmptFault hc => cases (faultOf_cmpt hw hc).symm.trans hf
  | cmptDone => rfl

theorem issue_cmpp_consumes {w : Word} (hw : decode w = .ok .cmpp) (hf : faultOf w s = none) :
    (issue w s).utValid = false ∧ (issue w s).upValid = false := by
  have heff := issue_effect w s
  generalize issue w s = t at heff
  rw [hw] at heff
  cases heff with
  | cmppFault hc => cases (faultOf_cmpp hw hc).symm.trans hf
  | cmppDone => exact ⟨rfl, rfl⟩

theorem issue_setoss_drops {w : Word} {o : BitVec 2} (hw : decode w = .ok (.setoss o)) (s : State) :
    (issue w s).upValid = false := by
  rw [issue, perform_ok hw]
  rfl

/-! ### What an outcome answers -/

theorem exec_cmpt_error {c : FaultCode} (h : s.cmptOutcome = .error c) : exec .cmpt s = .next (faultCmpt c s) := by
  simp only [exec, execCmpt, h]

theorem exec_cmpt_ok {t10 : Int} (h : s.cmptOutcome = .ok t10) : exec .cmpt s = .next (s.putTemp t10).consumeUt := by
  simp only [exec, execCmpt, h]

theorem exec_cmpp_error {c : FaultCode} (h : s.cmppOutcome = .error c) : exec .cmpp s = .next (faultCmpp c s) := by
  simp only [exec, execCmpp, h]

theorem exec_cmpp_ok {p : Int} (h : s.cmppOutcome = .ok p) :
    exec .cmpp s = .next (s.putPres p).consumeUt.dropUp := by
  simp only [exec, execCmpp, h]

/-! ### Without a reading a computation faults -/

theorem exec_cmpt_of_not_utValid (h : s.utValid = false) :
    exec .cmpt s = .next (faultCmpt .calNotLoaded s) ∨ exec .cmpt s = .next (faultCmpt .utNotLoaded s) := by
  by_cases hcal : s.calValid = false
  · exact .inl (exec_cmpt_error (if_pos hcal))
  · exact .inr (exec_cmpt_error (by rw [State.cmptOutcome, if_neg hcal, if_pos h]))

theorem exec_cmpp_of_not_utValid (h : s.utValid = false) :
    exec .cmpp s = .next (faultCmpp .calNotLoaded s) ∨ exec .cmpp s = .next (faultCmpp .utNotLoaded s) := by
  by_cases hcal : s.calValid = false
  · exact .inl (exec_cmpp_error (if_pos hcal))
  · exact .inr (exec_cmpp_error (by rw [State.cmppOutcome, if_neg hcal, if_pos h]))

theorem exec_cmpp_of_not_upValid (h : s.upValid = false) :
    ∃ c ∈ [FaultCode.calNotLoaded, .utNotLoaded, .upNotLoaded], exec .cmpp s = .next (faultCmpp c s) := by
  by_cases hcal : s.calValid = false
  · exact ⟨.calNotLoaded, by simp, exec_cmpp_error (if_pos hcal)⟩
  by_cases hut : s.utValid = false
  · exact ⟨.utNotLoaded, by simp, exec_cmpp_error (by rw [State.cmppOutcome, if_neg hcal, if_pos hut])⟩
  · exact ⟨.upNotLoaded, by simp, exec_cmpp_error (by rw [State.cmppOutcome, if_neg hcal, if_neg hut, if_pos h])⟩

/-- Settles O34: a computation that raised no fault consumed the reading, only an LDUT or LDUP makes it usable again, and
without it a further computation faults. -/
theorem readingFeedsOneComputation : Obligations.ReadingFeedsOneComputation := by
  refine ⟨fun w ws s hw hf hws => ?_, fun w ws s hw hf hws => ?_⟩
  · have hfirst : (issue w s).utValid = false :=
      hw.elim (fun hw => issue_cmpt_consumes hw hf) (fun hw => (issue_cmpp_consumes hw hf).1)
    have hut : (issueAll (w :: ws) s).utValid = false := issueAll_utValid_false (ws := ws) hws hfirst
    exact ⟨hut, exec_cmpt_of_not_utValid hut, exec_cmpp_of_not_utValid hut⟩
  · have hup : (issueAll (w :: ws) s).upValid = false := issueAll_upValid_false (ws := ws) hws (issue_cmpp_consumes hw hf).2
    exact ⟨hup, exec_cmpp_of_not_upValid hup⟩

/-- Settles O35: SETOSS drops UP, only an LDUP makes it usable again, and without it a CMPP faults with code 2, 3 or 4. -/
theorem upNeverMeetsAnotherOss : Obligations.UpNeverMeetsAnotherOss := by
  intro w ws o s hw hws
  have hup : (issueAll (w :: ws) s).upValid = false := issueAll_upValid_false (ws := ws) hws (issue_setoss_drops hw s)
  obtain ⟨c, hmem, hexec⟩ := exec_cmpp_of_not_upValid hup
  have hcode : ∀ c ∈ [FaultCode.calNotLoaded, .utNotLoaded, .upNotLoaded], c.code ≤ 4 := by decide
  exact ⟨hup, c, hcode c hmem, hexec⟩

end Sys2Proof.Machine
end

section
/-! PROOFS. STATUS, the coefficients as numbers, MB, reset, and the host's next move. -/

namespace Sys2Proof.Machine

/-! ### STATUS -/

/-- The bits of STATUS from bit 0 on (10_state.md R32); every further bit is 0. -/
def State.statusBits (s : State) : List Bool :=
  [s.calValid, s.utValid, s.upValid, s.tValid, s.pValid, s.faulted, s.oss.getLsbD 0, s.oss.getLsbD 1]

theorem statusWord_getLsbD (s : State) (n : Nat) : s.statusWord.getLsbD n = s.statusBits.getD n false := by
  simp only [State.statusWord, bit, BitVec.getLsbD_append]
  by_cases hn : n < 8
  · interval_cases n <;> simp [State.statusBits]
  · obtain ⟨m, rfl⟩ := Nat.exists_eq_add_of_le' (not_lt.mp hn)
    simp [State.statusBits]

theorem State.faulted_eq (s : State) : s.faulted = decide (s.faultFirst ≠ 0) := by
  rw [State.faulted, bne, Bool.beq_eq_decide_eq, decide_not]

/-- Settles O2: STATUS is the concatenation of R32's fields, and each bit of it is the bit of the field at its place. -/
theorem statusWordShowsTheBits : Obligations.StatusWordShowsTheBits := by
  intro s
  have hbit : ∀ n, (s.readPort 0x00).getLsbD n = s.statusBits.getD n false := statusWord_getLsbD s
  refine ⟨hbit 0, hbit 1, hbit 2, hbit 3, hbit 4, ?_, ?_, fun n hn => ?_⟩
  · exact (hbit 5).trans s.faulted_eq
  · apply BitVec.eq_of_getLsbD_eq
    intro i hi
    rw [BitVec.getLsbD_extractLsb', hbit]
    interval_cases i <;> simp [State.statusBits]
  · rw [hbit]
    exact List.getD_eq_default _ _ hn

/-! ### The coefficients as numbers -/

/-- The two's-complement number of a 16-bit pattern, by its sign bit. -/
theorem sext_eq (v : Half) : sext v = if v.getLsbD 15 then (v.toNat : Int) - 65536 else v.toNat := by
  rw [sext, BitVec.toInt_eq_msb_cond, BitVec.msb_eq_getLsbD_last]
  rfl

theorem sext_value (v : Half) :
    sext v = (if v.getLsbD 15 then (v.toNat : Int) - 65536 else v.toNat) ∧ -32768 ≤ sext v ∧ sext v ≤ 32767 :=
  ⟨sext_eq v, sext_bounds v⟩

/-- Settles O38: the signed coefficients are `sext` of their patterns, AC4, AC5 and AC6 are `zext`. -/
theorem coefficientValues : Obligations.CoefficientValues := by
  intro cal
  refine ⟨fun p hp => ?_, fun p hp => ?_⟩
  · simp only [List.mem_cons, List.not_mem_nil, or_false] at hp
    rcases hp with rfl | rfl | rfl | rfl | rfl | rfl | rfl | rfl <;> exact sext_value _
  · simp only [List.mem_cons, List.not_mem_nil, or_false] at hp
    rcases hp with rfl | rfl | rfl <;> exact ⟨rfl, zext_bounds _⟩

/-! ### MB -/

/-- The state with another MB. -/
def State.withMb (s : State) (v : Half) : State := { s with cal := s.cal.set 8 v }

/-- Another MB changes one number of the file, which no stage reads. -/
theorem coeffs_set_mb (cal : Vector Half 11) (v : Half) : coeffs (cal.set 8 v) = { coeffs cal with mb := sext v } := by
  simp [coeffs, coeffValue, coeffSigned]

theorem tempResult_withMb (s : State) (v : Half) : (s.withMb v).tempResult = s.tempResult := by
  have hcal : coeffs (s.withMb v).cal = _ := coeffs_set_mb s.cal v
  rw [State.tempResult, hcal]
  rfl

theorem presResult_withMb (s : State) (v : Half) : (s.withMb v).presResult = s.presResult := by
  have hcal : coeffs (s.withMb v).cal = _ := coeffs_set_mb s.cal v
  rw [State.presResult, hcal]
  rfl

theorem cmptOutcome_withMb (s : State) (v : Half) : (s.withMb v).cmptOutcome = s.cmptOutcome := by
  rw [State.cmptOutcome, tempResult_withMb]
  rfl

theorem cmppOutcome_withMb (s : State) (v : Half) : (s.withMb v).cmppOutcome = s.cmppOutcome := by
  rw [State.cmppOutcome, presResult_withMb]
  rfl

theorem exec_cmpt_withMb {s t : State} (v : Half) (h : exec .cmpt s = .next t) :
    exec .cmpt (s.withMb v) = .next (t.withMb v) := by
  have hmb := cmptOutcome_withMb s v
  obtain ⟨c, hc, he⟩ | ⟨t10, hc, he⟩ := execCmpt_cases s
  · cases he.symm.trans h
    exact exec_cmpt_error (hmb.trans hc)
  · cases he.symm.trans h
    exact exec_cmpt_ok (hmb.trans hc)

theorem exec_cmpp_withMb {s t : State} (v : Half) (h : exec .cmpp s = .next t) :
    exec .cmpp (s.withMb v) = .next (t.withMb v) := by
  have hmb := cmppOutcome_withMb s v
  obtain ⟨c, hc, he⟩ | ⟨p, hc, he⟩ := execCmpp_cases s
  · cases he.symm.trans h
    exact exec_cmpp_error (hmb.trans hc)
  · cases he.symm.trans h
    exact exec_cmpp_ok (hmb.trans hc)

theorem calValid_false_of_bit {s : State} {k : Fin 11} (h : s.loaded.getLsbD k.val = false) : s.calValid = false := by
  refine Bool.eq_false_iff.mpr fun hvalid => ?_
  rw [(calValid_iff s).mp hvalid] at h
  revert k
  decide

/-- Settles O43: CALW 8 writes MB as any coefficient, CAL_VALID asks for its bit, and the stages read the same numbers
whatever it is. -/
theorem mbHasNoEffectOnResults : Obligations.MbHasNoEffectOnResults := by
  refine ⟨fun msb lsb s t h => ?_, fun s h => calValid_false_of_bit (k := 8) h,
    fun s t v => ⟨exec_cmpt_withMb v, exec_cmpp_withMb v⟩⟩
  have heq : exec (.calw 8 msb lsb) s = .next ((s.setCal 8 (v16 msb lsb)).setLoaded 8) := rfl
  rw [heq] at h
  cases h
  have hcal : ((s.setCal 8 (v16 msb lsb)).setLoaded 8).cal[8] = v16 msb lsb := by simp
  refine ⟨hcal, ?_, ?_⟩
  · rw [State.setLoaded_loaded, BitVec.getLsbD_or, BitVec.getLsbD_twoPow]
    simp
  · have hport (u : State) : u.readPort 0x18 = u.cal[8].setWidth 32 := rfl
    rw [hport, hcal, BitVec.toNat_setWidth_of_le (by omega), v16_toNat]

/-! ### Reset -/

theorem resetBlock_allZero (s : State) : s.resetBlock.AllZero := by
  refine ⟨fun k => ?_, rfl, rfl, rfl, rfl, rfl, rfl, rfl, rfl, rfl, rfl, rfl, rfl⟩
  exact Vector.getElem_replicate k.isLt

theorem reset_readPort (a : BitVec 8) : State.reset.readPort a = 0 := by
  unfold State.readPort
  split <;> decide

/-- The read port does not show the host's pending moves. -/
theorem resetBlock_readPort (s : State) (a : BitVec 8) : s.resetBlock.readPort a = 0 := reset_readPort a

theorem raiseFault_calNotLoaded_resetBlock (s : State) :
    raiseFault .calNotLoaded s.resetBlock = { s.resetBlock with faultFirst := 2, faultMask := 0x04 } := by
  have hmask : (0 : BitVec 7) ||| FaultCode.calNotLoaded.maskBit = 0x04 := by decide
  rw [← hmask]
  rfl

/-- Settles O1: SRST, the reset input and power-on all leave a reset block, which has every field 0, reads 0, and has no
coefficient loaded. -/
theorem resetLeavesEveryFieldZero : Obligations.ResetLeavesEveryFieldZero := by
  refine ⟨resetBlock_allZero State.reset, fun s t ht => ?_⟩
  obtain ⟨u, rfl⟩ : ∃ u : State, t = u.resetBlock := by
    obtain h | h | rfl := ht
    · cases h
      exact ⟨s, rfl⟩
    · cases h
      exact ⟨s, rfl⟩
    · exact ⟨State.reset, rfl⟩
  rw [← raiseFault_calNotLoaded_resetBlock]
  exact ⟨resetBlock_allZero u, resetBlock_readPort u, exec_cmpt_error rfl, exec_cmpp_error rfl⟩

/-! ### The host's next move -/

theorem step_of_command {s : State} {w : Word} {rest : List Input} (h : s.inputs = .command w :: rest) :
    step s = perform w { s with inputs := rest } := by
  simp only [step, stepHost, State.takeInput, h, applyInput]

theorem step_of_reset {s : State} {rest : List Input} (h : s.inputs = .reset :: rest) :
    step s = .next { State.reset with inputs := rest } := by
  simp only [step, stepHost, State.takeInput, h, applyInput, State.resetBlock]

theorem step_of_no_input {s : State} (h : s.inputs = []) : step s = .next s := by
  simp only [step, stepHost, State.takeInput, h]

/-- Settles O12: a pending word is performed, decoded or illegal, the reset input resets, and with no move the block
waits. -/
theorem stepPerformsTheNextMove : Obligations.StepPerformsTheNextMove := fun _ _ =>
  ⟨fun _ _ hin hdec => (step_of_command hin).trans (perform_ok hdec _),
    fun _ _ hin hdec => (step_of_command hin).trans (perform_error hdec _), step_of_reset, step_of_no_input⟩

end Sys2Proof.Machine
end

section
/-! PROOFS. The read port: the word each address of 20_memory.md R52 reads, and its number. -/

namespace Sys2Proof.Machine

/-! ### The word at an address -/

/-- The calibration file stands at 0x10 to 0x1A, one coefficient an address. -/
theorem readPort_cal (s : State) (k : Fin 11) :
    s.readPort (BitVec.ofNat 8 (0x10 + k.val)) = s.cal[k].setWidth 32 := by
  fin_cases k <;> rfl

/-- The map has two gaps, 0x0A to 0x0F and 0x1B to 0xFF (R53). -/
theorem readPort_unmapped (s : State) {a : BitVec 8} (ha : (0x09 < a.toNat ∧ a.toNat < 0x10) ∨ 0x1A < a.toNat) :
    s.readPort a = 0 := by
  unfold State.readPort
  split
  case h_22 => rfl
  all_goals omega

/-! ### The number a register reads -/

theorem statusWord_lt (s : State) : s.statusWord.toNat < 2 ^ 8 := by
  refine Nat.lt_pow_two_of_testBit _ fun n hn => ?_
  exact (statusWord_getLsbD s n).trans (List.getD_eq_default _ _ hn)

/-- The hard-wired bit 0 of FAULT_MASK reads 0, and the others as stored (log 6). -/
theorem faultMaskRead_toNat (s : State) : s.faultMaskRead.toNat = s.faultMask.toNat / 2 * 2 := by
  have hmask : ∀ m : BitVec 7, (m &&& 0x7E).toNat = m.toNat / 2 * 2 := by decide
  exact hmask s.faultMask

theorem State.Inv.faultMask_even {s : State} (h : s.Inv) : s.faultMask.toNat / 2 * 2 = s.faultMask.toNat := by
  have hbit : s.faultMask.toNat.testBit 0 = false := h.mask_bit0
  rw [Nat.testBit_zero, decide_eq_false_iff_not] at hbit
  omega

theorem State.Inv.up_high_bits {s : State} (h : s.Inv) {n : Nat} (hn : 19 ≤ n) : s.up.getLsbD n = false :=
  Nat.testBit_eq_false_of_lt (h.up_width.trans_le (Nat.pow_le_pow_right (by omega) hn))

theorem readPort_presLo_toNat (s : State) : (s.readPort 0x08).toNat = s.pres.toNat % 2 ^ 32 :=
  BitVec.extractLsb'_toNat 0 32 s.pres

theorem readPort_presHi_toNat (s : State) : (s.readPort 0x09).toNat = s.pres.toNat / 2 ^ 32 := by
  have hpres := s.pres.isLt
  have hport : s.readPort 0x09 = s.pres.extractLsb' 32 32 := rfl
  rw [hport, BitVec.extractLsb'_toNat, Nat.shiftRight_eq_div_pow]
  omega

/-- Settles O3: a narrow register is zero-extended, FAULT_MASK is masked, PRES is cut in two, and the map's gaps read
0. -/
theorem readPortMap : Obligations.ReadPortMap := by
  intro s
  have hmask : (s.readPort 0x03).toNat = s.faultMask.toNat / 2 * 2 :=
    (BitVec.toNat_setWidth_of_le (b := s.faultMaskRead) (by decide)).trans (faultMaskRead_toNat s)
  exact
    ⟨⟨rfl, statusWord_lt s⟩,
      BitVec.toNat_setWidth_of_le (b := s.loaded) (by decide),
      BitVec.toNat_setWidth_of_le (b := s.faultFirst) (by decide),
      hmask,
      fun h => hmask.trans h.faultMask_even,
      BitVec.toNat_setWidth_of_le (b := s.oss) (by decide),
      BitVec.toNat_setWidth_of_le (b := s.ut) (by decide),
      rfl,
      fun h _ => h.up_high_bits,
      rfl,
      readPort_presLo_toNat s,
      readPort_presHi_toNat s,
      fun k => (readPort_cal s k).symm ▸ BitVec.toNat_setWidth_of_le (by decide),
      fun _ => readPort_unmapped s⟩

/-! ### The pressure from its two halves -/

theorem readPres_toNat (s : State) :
    s.readPres.toNat = (s.readPort 0x09).toNat * 2 ^ 32 + (s.readPort 0x08).toNat := by
  rw [State.readPres, BitVec.toNat_append, ← Nat.shiftLeft_add_eq_or_of_lt (s.readPort 0x08).isLt, Nat.shiftLeft_eq]

/-- Settles O4: the halves read the quotient and the remainder of PRES by 2^32 (R57). -/
theorem pressureFromTwoHalves : Obligations.PressureFromTwoHalves := by
  refine fun s => ⟨BitVec.eq_of_toNat_eq ?_, readPres_toNat s⟩
  rw [readPres_toNat, readPort_presHi_toNat, readPort_presLo_toNat]
  exact Nat.div_add_mod' s.pres.toNat (2 ^ 32)

end Sys2Proof.Machine
end

section
/-! PROOFS. A run of the host's pending words is the words issued in order (20_memory.md R60). -/

namespace Sys2Proof.Machine

variable {s t : State} {d : Except Illegal Instr}

/-- No effect reads the host's pending moves, and each leaves them as they are (log 1). -/
theorem Effect.withInputs (h : Effect s d t) (is : List Input) :
    Effect { s with inputs := is } d { t with inputs := is } := by
  cases h with
  | illegal e => exact .illegal e
  | calw msb lsb legal => exact .calw msb lsb legal
  | calclr => exact .calclr
  | setoss o => exact .setoss o
  | ldut msb lsb => exact .ldut msb lsb
  | ldup msb lsb xlsb => exact .ldup msb lsb xlsb
  | cmptFault outcome => exact .cmptFault (s := { s with inputs := is }) outcome
  | cmptDone outcome => exact .cmptDone (s := { s with inputs := is }) outcome
  | cmppFault outcome => exact .cmppFault (s := { s with inputs := is }) outcome
  | cmppDone outcome => exact .cmppDone (s := { s with inputs := is }) outcome
  | srst => exact .srst

/-- The effect of a word determines what performing it answers. -/
theorem Effect.perform_eq {w : Word} (h : Effect s (decode w) t) : perform w s = .next t := by
  generalize hd : decode w = d at h
  cases h with
  | illegal => exact perform_error hd s
  | calw _ _ legal => exact (perform_ok hd s).trans (if_pos (decide_eq_true legal))
  | cmptFault outcome => exact (perform_ok hd s).trans (exec_cmpt_error outcome)
  | cmptDone outcome => exact (perform_ok hd s).trans (exec_cmpt_ok outcome)
  | cmppFault outcome => exact (perform_ok hd s).trans (exec_cmpp_error outcome)
  | cmppDone outcome => exact (perform_ok hd s).trans (exec_cmpp_ok outcome)
  | _ => exact perform_ok hd s

/-- Performing a word over other pending moves gives the same block over those moves. -/
theorem perform_withInputs (w : Word) (s : State) (is : List Input) :
    perform w { s with inputs := is } = .next { issue w s with inputs := is } :=
  ((issue_effect w s).withInputs is).perform_eq

theorem issue_withInputs (w : Word) (s : State) (is : List Input) :
    issue w { s with inputs := is } = { issue w s with inputs := is } := by
  rw [issue, perform_withInputs, stateAfter_next]

/-- A step takes the first pending word, issues it, and leaves the rest pending. -/
theorem step_pending_word (w : Word) (rest : List Input) (s : State) :
    step { s with inputs := .command w :: rest } = .next { issue w s with inputs := rest } :=
  (step_of_command rfl).trans (perform_withInputs w s rest)

/-- Settles O14, by induction on the words: the first step issues the first word, and the run goes on from there. -/
theorem queueRunIsIssueInOrder : Obligations.QueueRunIsIssueInOrder := by
  intro ws
  induction ws with
  | nil => exact fun _ => rfl
  | cons w ws ih =>
    intro s
    have hstep := step_pending_word w (ws.map Input.command) s
    calc Host.Core.run Sys2Proof.core (ws.length + 1) { s with inputs := .command w :: ws.map Input.command }
        = Host.Core.run Sys2Proof.core ws.length { issue w s with inputs := ws.map Input.command } := run_succ _ hstep
      _ = .next (issueAll ws { issue w s with inputs := [] }) := ih (issue w s)
      _ = .next (issueAll (w :: ws) { s with inputs := [] }) := by rw [issueAll_cons, issue_withInputs w s []]

end Sys2Proof.Machine
end

section
/-! PROOFS. The decoder (30_encoding.md R83): an equation for each OP, and that a word decodes to a command exactly where
the command is well-formed and the word is its word. -/

namespace Sys2Proof

variable {w : Word} {i : Instr}

/-! ### The decoder at each OP -/

theorem decode_of_unknown_op (h : fieldOp w = 0 ∨ (8 ≤ (fieldOp w).toNat ∧ (fieldOp w).toNat ≤ 14)) :
    decode w = .error .unknownOpcode := by
  have hop : (fieldOp w).toNat = 0 ∨ (8 ≤ (fieldOp w).toNat ∧ (fieldOp w).toNat ≤ 14) := h.imp_left (congrArg BitVec.toNat)
  unfold decode
  simp only
  split
  case h_9 => rfl
  all_goals omega

theorem decode_of_op_calw (h : fieldOp w = 1) :
    decode w = if calIndexLegal (fieldSel w) then
      (if fieldD2 w = 0 then .ok (.calw (fieldSel w) (fieldD1 w) (fieldD0 w)) else .error .reservedField)
      else .error .calIndex := by
  rw [decode, h]
  rfl

theorem decode_of_op_calclr (h : fieldOp w = 2) :
    decode w = if w = 0x20000000 then .ok .calclr else .error .reservedField := by
  rw [decode, h]
  rfl

theorem decode_of_op_setoss (h : fieldOp w = 3) :
    decode w = if (fieldSel w).extractLsb' 2 2 = 0 ∧ w.extractLsb' 0 24 = 0
      then .ok (.setoss ((fieldSel w).extractLsb' 0 2)) else .error .reservedField := by
  rw [decode, h]
  rfl

theorem decode_of_op_ldut (h : fieldOp w = 4) :
    decode w = if fieldSel w = 0 ∧ fieldD2 w = 0 then .ok (.ldut (fieldD1 w) (fieldD0 w))
      else .error .reservedField := by
  rw [decode, h]
  rfl

theorem decode_of_op_ldup (h : fieldOp w = 5) :
    decode w = if fieldSel w = 0 then .ok (.ldup (fieldD2 w) (fieldD1 w) (fieldD0 w))
      else .error .reservedField := by
  rw [decode, h]
  rfl

theorem decode_of_op_cmpt (h : fieldOp w = 6) :
    decode w = if w = 0x60000000 then .ok .cmpt else .error .reservedField := by
  rw [decode, h]
  rfl

theorem decode_of_op_cmpp (h : fieldOp w = 7) :
    decode w = if w = 0x70000000 then .ok .cmpp else .error .reservedField := by
  rw [decode, h]
  rfl

theorem decode_of_op_srst (h : fieldOp w = 15) :
    decode w = if w = 0xF00000B6 then .ok .srst else .error .resetKey := by
  rw [decode, h]
  rfl

/-! ### Decoding the word of a command -/

/-- Settles O7: the word of each command carries the OP whose case of R83 reads its fields back. -/
theorem decodeOfEncode : Obligations.DecodeOfEncode := by
  intro i hi
  cases i with
  | calw k msb lsb =>
    have hk : calIndexLegal k = true := hi
    rw [encode, decode_of_op_calw (fieldOp_packFields ..)]
    simp [hk]
  | calclr => exact decode_of_op_calclr (by decide)
  | setoss o => revert o; decide
  | ldut msb lsb =>
    rw [encode, decode_of_op_ldut (fieldOp_packFields ..)]
    simp
  | ldup msb lsb xlsb =>
    rw [encode, decode_of_op_ldup (fieldOp_packFields ..)]
    simp
  | cmpt => exact decode_of_op_cmpt (by decide)
  | cmpp => exact decode_of_op_cmpp (by decide)
  | srst => exact decode_of_op_srst (by decide)

/-! ### The word of a decoded command -/

/-- A packed word is the word with those fields. -/
theorem packFields_eq_iff {op sel : BitVec 4} {d2 d1 d0 : Byte} :
    packFields op sel d2 d1 d0 = w ↔
      fieldOp w = op ∧ fieldSel w = sel ∧ fieldD2 w = d2 ∧ fieldD1 w = d1 ∧ fieldD0 w = d0 := by
  constructor
  · rintro rfl
    simp
  · rintro ⟨rfl, rfl, rfl, rfl, rfl⟩
    exact packFields_fields w

/-- The reserved SEL bits of SETOSS (R82). -/
theorem sel_high_eq_zero_iff : ∀ sel : BitVec 4, sel.extractLsb' 2 2 = 0 ↔ sel.toNat < 4 := by decide

theorem append_sel_low : ∀ sel : BitVec 4, sel.extractLsb' 2 2 = 0 → (0 : BitVec 2) ++ sel.extractLsb' 0 2 = sel := by
  decide

/-- Bits 23:0 of a word are its three data fields. -/
theorem low24_eq_zero_iff : w.extractLsb' 0 24 = 0 ↔ fieldD2 w = 0 ∧ fieldD1 w = 0 ∧ fieldD0 w = 0 := by
  have hlow : (w.extractLsb' 0 24).toNat = w.toNat % 2 ^ 24 := by simp
  simp only [← BitVec.toNat_inj, hlow, toNat_fieldD2, toNat_fieldD1, toNat_fieldD0, BitVec.ofNat_eq_ofNat,
    BitVec.toNat_ofNat, Nat.zero_mod]
  omega

theorem encode_of_decode (h : decode w = .ok i) : encode i = w := by
  unfold decode at h
  simp only at h
  split at h
  case h_1 hop =>
    split_ifs at h with _ hd2
    cases h
    exact packFields_eq_iff.mpr ⟨BitVec.eq_of_toNat_eq hop, rfl, hd2, rfl, rfl⟩
  case h_3 hop =>
    split_ifs at h with hreserved
    cases h
    obtain ⟨hsel, hlow⟩ := hreserved
    exact packFields_eq_iff.mpr ⟨BitVec.eq_of_toNat_eq hop, (append_sel_low _ hsel).symm, low24_eq_zero_iff.mp hlow⟩
  case h_4 hop =>
    split_ifs at h with hreserved
    cases h
    obtain ⟨hsel, hd2⟩ := hreserved
    exact packFields_eq_iff.mpr ⟨BitVec.eq_of_toNat_eq hop, hsel, hd2, rfl, rfl⟩
  case h_5 hop =>
    split_ifs at h with hsel
    cases h
    exact packFields_eq_iff.mpr ⟨BitVec.eq_of_toNat_eq hop, hsel, rfl, rfl, rfl⟩
  case h_9 => cases h
  all_goals
    split_ifs at h with hw
    cases h
    exact hw.symm

/-- Settles O8: each case of R83 checks every field that the command's word does not carry. -/
theorem encodeOfDecode : Obligations.EncodeOfDecode := fun _ _ h =>
  ⟨Machine.decode_wellFormed h, encode_of_decode h⟩

/-- The decoder inverts the encoder: all that the later proofs use of it. -/
theorem decode_eq_ok_iff : decode w = .ok i ↔ i.WellFormed ∧ encode i = w := by
  constructor
  · exact encodeOfDecode w i
  · rintro ⟨hi, rfl⟩
    exact decodeOfEncode i hi

/-- Settles O6: each legal word is the word of its command, and each illegal one fails the check of its OP. -/
theorem sampleWordsDecode : Obligations.SampleWordsDecode := by
  have hlegal {i : Instr} (hi : i.WellFormed) : decode (encode i) = .ok i := decodeOfEncode i hi
  exact
    ⟨hlegal (i := .calw 0 0x01 0x98) rfl, hlegal (i := .calw 10 0x0B 0x34) rfl, hlegal (i := .calclr) rfl,
      hlegal (i := .setoss 3) rfl, hlegal (i := .ldut 0x6C 0xFA) rfl, hlegal (i := .ldup 0x5D 0x23 0x00) rfl,
      hlegal (i := .cmpt) rfl, hlegal (i := .cmpp) rfl, hlegal (i := .srst) rfl,
      decode_of_unknown_op (.inl rfl), decode_of_op_calw rfl, decode_of_op_calw rfl, decode_of_op_calclr rfl,
      decode_of_op_srst rfl⟩

/-! ### On the numbers of the fields -/

theorem packFields_eq_iff_toNat {op sel : BitVec 4} {d2 d1 d0 : Byte} :
    packFields op sel d2 d1 d0 = w ↔
      w.toNat / 2 ^ 28 = op.toNat ∧ w.toNat / 2 ^ 24 % 16 = sel.toNat ∧ w.toNat / 2 ^ 16 % 256 = d2.toNat ∧
      w.toNat / 2 ^ 8 % 256 = d1.toNat ∧ w.toNat % 256 = d0.toNat := by
  rw [packFields_eq_iff, ← toNat_fieldOp, ← toNat_fieldSel, ← toNat_fieldD2, ← toNat_fieldD1, ← toNat_fieldD0]
  simp only [BitVec.toNat_inj]

theorem encode_eq_iff_toNat : encode i = w ↔ w.toNat = (encode i).toNat := by
  rw [BitVec.toNat_inj, eq_comm]

/-- A command without operands has one word. -/
theorem decode_eq_ok_iff_toNat (hi : i.WellFormed) : decode w = .ok i ↔ w.toNat = (encode i).toNat := by
  rw [decode_eq_ok_iff, and_iff_right hi, encode_eq_iff_toNat]

theorem wellFormed_calw_iff {k : BitVec 4} {msb lsb : Byte} : (Instr.calw k msb lsb).WellFormed ↔ k.toNat ≤ 10 :=
  decide_eq_true_iff

theorem toNat_zero_append (o : BitVec 2) : ((0 : BitVec 2) ++ o).toNat = o.toNat := by
  revert o
  decide

/-- Settles O9: the word of a command is the one whose fields have the numbers of R82's row. -/
theorem decodeFunctionOnFields : Obligations.DecodeFunctionOnFields := by
  intro w
  dsimp only
  refine ⟨fun k msb lsb => ?_, decode_eq_ok_iff_toNat rfl, fun o => ?_, fun msb lsb => ?_, fun msb lsb xlsb => ?_,
    decode_eq_ok_iff_toNat rfl, decode_eq_ok_iff_toNat rfl, decode_eq_ok_iff_toNat rfl⟩
  · rw [decode_eq_ok_iff, wellFormed_calw_iff, encode, packFields_eq_iff_toNat]
    simp only [BitVec.ofNat_eq_ofNat, BitVec.toNat_ofNat]
    omega
  · have hwf : (Instr.setoss o).WellFormed := rfl
    rw [decode_eq_ok_iff, and_iff_right hwf, encode, packFields_eq_iff_toNat, toNat_zero_append]
    have := o.isLt
    simp only [BitVec.ofNat_eq_ofNat, BitVec.toNat_ofNat]
    omega
  · have hwf : (Instr.ldut msb lsb).WellFormed := rfl
    rw [decode_eq_ok_iff, and_iff_right hwf, encode, packFields_eq_iff_toNat]
    simp only [BitVec.ofNat_eq_ofNat, BitVec.toNat_ofNat]
    omega
  · have hwf : (Instr.ldup msb lsb xlsb).WellFormed := rfl
    rw [decode_eq_ok_iff, and_iff_right hwf, encode, packFields_eq_iff_toNat]
    simp only [BitVec.ofNat_eq_ofNat, BitVec.toNat_ofNat]
    omega

end Sys2Proof
end

section
/-! PROOFS. The rows of the opcode table (30_encoding.md R82), and the words that match none (R84). -/

namespace Sys2Proof.Machine

variable {w : Word} {i : Instr}

/-! ### A row matches the words of its command -/

theorem encode_matches_row (hi : i.WellFormed) {r : OpcodeRow} (hr : r ∈ opcodeRows) (hm : r.mnemonic = i.mnemonic) :
    r.matches (encode i) = true := by
  cases i with
  | calw k msb lsb => exact Laws.EncodeMatchesRow.calw k msb lsb hi r hr hm
  | calclr => exact Laws.EncodeMatchesRow.calclr hi r hr hm
  | setoss o => exact Laws.EncodeMatchesRow.setoss o hi r hr hm
  | ldut msb lsb => exact Laws.EncodeMatchesRow.ldut msb lsb hi r hr hm
  | ldup msb lsb xlsb => exact Laws.EncodeMatchesRow.ldup msb lsb xlsb hi r hr hm
  | cmpt => exact Laws.EncodeMatchesRow.cmpt hi r hr hm
  | cmpp => exact Laws.EncodeMatchesRow.cmpp hi r hr hm
  | srst => exact Laws.EncodeMatchesRow.srst hi r hr hm

/-- A mask acts on each field by itself. -/
theorem fields_of_and_eq {m p : Word} (h : w &&& m = p) :
    fieldOp w &&& fieldOp m = fieldOp p ∧ fieldSel w &&& fieldSel m = fieldSel p ∧
    fieldD2 w &&& fieldD2 m = fieldD2 p ∧ fieldD1 w &&& fieldD1 m = fieldD1 p ∧ fieldD0 w &&& fieldD0 m = fieldD0 p := by
  subst h
  simp only [fieldOp, fieldSel, fieldD2, fieldD1, fieldD0, BitVec.extractLsb'_and, and_self]

/-- A field whose mask is all ones has one value in a row. -/
theorem eq_of_and_allOnes {n : Nat} {x p : BitVec n} (h : x &&& BitVec.allOnes n = p) : x = p :=
  BitVec.and_allOnes.symm.trans h

/-- The SEL of a word that matches SETOSS's row. -/
theorem eq_append_of_and_high_eq_zero :
    ∀ sel : BitVec 4, sel &&& 0xC = 0 → sel = (0 : BitVec 2) ++ sel.extractLsb' 0 2 := by decide

/-- The word of a row is the word of a well-formed command with the row's mnemonic. -/
theorem exists_encode_of_matches {r : OpcodeRow} (hr : r ∈ opcodeRows) (h : r.matches w = true) :
    ∃ i : Instr, i.WellFormed ∧ encode i = w ∧ r.mnemonic = i.mnemonic := by
  obtain ⟨hmask, hsel⟩ := of_decide_eq_true h
  obtain ⟨hop, hs, h2, h1, h0⟩ := fields_of_and_eq hmask
  simp only [opcodeRows, List.mem_cons, List.not_mem_nil, or_false] at hr
  obtain rfl | rfl | rfl | rfl | rfl | rfl | rfl | rfl := hr
  · exact ⟨.calw (fieldSel w) (fieldD1 w) (fieldD0 w), wellFormed_calw_iff.mpr hsel,
      packFields_eq_iff.mpr ⟨eq_of_and_allOnes hop, rfl, eq_of_and_allOnes h2, rfl, rfl⟩, rfl⟩
  · exact ⟨.calclr, rfl, (eq_of_and_allOnes hmask).symm, rfl⟩
  · exact ⟨.setoss ((fieldSel w).extractLsb' 0 2), rfl,
      packFields_eq_iff.mpr ⟨eq_of_and_allOnes hop, eq_append_of_and_high_eq_zero _ hs, eq_of_and_allOnes h2,
        eq_of_and_allOnes h1, eq_of_and_allOnes h0⟩, rfl⟩
  · exact ⟨.ldut (fieldD1 w) (fieldD0 w), rfl,
      packFields_eq_iff.mpr ⟨eq_of_and_allOnes hop, eq_of_and_allOnes hs, eq_of_and_allOnes h2, rfl, rfl⟩, rfl⟩
  · exact ⟨.ldup (fieldD2 w) (fieldD1 w) (fieldD0 w), rfl,
      packFields_eq_iff.mpr ⟨eq_of_and_allOnes hop, eq_of_and_allOnes hs, rfl, rfl, rfl⟩, rfl⟩
  · exact ⟨.cmpt, rfl, (eq_of_and_allOnes hmask).symm, rfl⟩
  · exact ⟨.cmpp, rfl, (eq_of_and_allOnes hmask).symm, rfl⟩
  · exact ⟨.srst, rfl, (eq_of_and_allOnes hmask).symm, rfl⟩

/-- A word matches a row exactly where it decodes to a command of the row's mnemonic. -/
theorem matches_iff {r : OpcodeRow} (hr : r ∈ opcodeRows) :
    r.matches w = true ↔ ∃ i, decode w = .ok i ∧ r.mnemonic = i.mnemonic := by
  constructor
  · intro h
    obtain ⟨i, hi, hw, hm⟩ := exists_encode_of_matches hr h
    exact ⟨i, decode_eq_ok_iff.mpr ⟨hi, hw⟩, hm⟩
  · rintro ⟨i, hd, hm⟩
    obtain ⟨hi, rfl⟩ := decode_eq_ok_iff.mp hd
    exact encode_matches_row hi hr hm

/-- A command has one row: the mnemonics of the table differ. -/
theorem exists_filter_mnemonic_eq (i : Instr) :
    ∃ r, opcodeRows.filter (fun r => r.mnemonic = i.mnemonic) = [r] ∧ r.mnemonic = i.mnemonic := by
  cases i <;> exact ⟨_, rfl, rfl⟩

/-- Settles O10: the rows a word matches are those with the mnemonic of the command it decodes to. -/
theorem legalWordMatchesExactlyOneRow : Obligations.LegalWordMatchesExactlyOneRow := by
  intro w
  cases hd : decode w with
  | ok i =>
    have hfilter : opcodeRows.filter (fun r => r.matches w) = opcodeRows.filter (fun r => r.mnemonic = i.mnemonic) := by
      refine List.filter_congr fun r hr => ?_
      rw [Bool.eq_iff_iff, matches_iff hr, decide_eq_true_iff, hd]
      simp
    simp only [hfilter]
    exact exists_filter_mnemonic_eq i
  | error e =>
    refine List.filter_eq_nil_iff.mpr fun r hr => ?_
    rw [matches_iff hr, hd]
    simp

/-! ### Words that do not decode -/

theorem raiseFault_illegalCommand (s : State) :
    raiseFault .illegalCommand s = { s with
      faultMask := s.faultMask ||| 0x02, faultFirst := if s.faultFirst = 0 then 1 else s.faultFirst } := by
  have hbit : FaultCode.illegalCommand.maskBit = 0x02 := by decide
  rw [← hbit]
  rfl

theorem sel_not_legal (h : 11 ≤ (fieldSel w).toNat) : ¬ calIndexLegal (fieldSel w) = true := by
  rw [calIndexLegal, decide_eq_true_iff]
  omega

/-- Settles O11: each class of words fails the check of its OP's case in R83. -/
theorem illegalWordOnlyRecordsTheFault : Obligations.IllegalWordOnlyRecordsTheFault := by
  refine ⟨fun w e s hd => ?_, fun w h => ⟨_, decode_of_unknown_op h⟩, fun w hop h => ?_, fun w hop h => ?_,
    fun w hop h => ?_, fun w hop h => ?_, fun w hop h => ?_, fun w hop h => ?_, ⟨_, decode_of_unknown_op (.inl rfl)⟩⟩
  · rw [perform_error hd, raiseFault_illegalCommand]
  · rw [decode_of_op_calw hop]
    obtain h | h := h
    · exact ⟨_, if_neg (sel_not_legal h)⟩
    · rw [if_neg h]
      split
      · exact ⟨_, rfl⟩
      · exact ⟨_, rfl⟩
  · have hw (v : Word) (hv : v.extractLsb' 0 28 = 0) : w ≠ v := fun hwv => h (hwv ▸ hv)
    obtain hop | hop | hop := hop
    · exact ⟨_, (decode_of_op_calclr hop).trans (if_neg (hw _ (by decide)))⟩
    · exact ⟨_, (decode_of_op_cmpt hop).trans (if_neg (hw _ (by decide)))⟩
    · exact ⟨_, (decode_of_op_cmpp hop).trans (if_neg (hw _ (by decide)))⟩
  · have hreserved : ¬ ((fieldSel w).extractLsb' 2 2 = 0 ∧ w.extractLsb' 0 24 = 0) := by
      rw [sel_high_eq_zero_iff]
      rintro ⟨hsel, hlow⟩
      exact h.elim (by omega) (absurd hlow)
    exact ⟨_, (decode_of_op_setoss hop).trans (if_neg hreserved)⟩
  · exact ⟨_, (decode_of_op_ldut hop).trans (if_neg (not_and_or.mpr h))⟩
  · exact ⟨_, (decode_of_op_ldup hop).trans (if_neg h)⟩
  · exact ⟨_, (decode_of_op_srst hop).trans (if_neg h)⟩

/-- Settles O16: the decoder gives well-formed commands only, and the meaning of CALW checks its index (log 4). -/
theorem unencodableCalwTakesTheFault : Obligations.UnencodableCalwTakesTheFault := by
  intro k msb lsb s hk
  have hill : ¬ (Instr.calw k msb lsb).WellFormed := by
    rw [wellFormed_calw_iff]
    omega
  refine ⟨?_, fun w hd => hill (decode_wellFormed hd)⟩
  rw [← raiseFault_illegalCommand]
  exact if_neg hill

end Sys2Proof.Machine
end

section
/-! PROOFS. The assembler's words are the words of the commands (30_encoding.md R89), and what the pseudo-instructions load
(R90). -/

namespace Sys2Proof.Machine

/-! ### Words of command lines -/

theorem calwWord_eq_encode {k msb lsb : Nat} (hk : k ≤ 10) (hm : msb ≤ 0xFF) (hl : lsb ≤ 0xFF) :
    calwWord k msb lsb = encode (.calw (BitVec.ofNat 4 k) (BitVec.ofNat 8 msb) (BitVec.ofNat 8 lsb)) := by
  apply BitVec.eq_of_toNat_eq
  simp only [calwWord, encode, toNat_packFields, BitVec.ofNat_eq_ofNat, BitVec.toNat_ofNat]
  omega

theorem setossWord_eq_encode {o : Nat} (ho : o ≤ 3) : setossWord o = encode (.setoss (BitVec.ofNat 2 o)) := by
  apply BitVec.eq_of_toNat_eq
  rw [setossWord, encode, toNat_packFields, toNat_zero_append]
  simp only [BitVec.ofNat_eq_ofNat, BitVec.toNat_ofNat]
  omega

theorem ldutWord_eq_encode {msb lsb : Nat} (hm : msb ≤ 0xFF) (hl : lsb ≤ 0xFF) :
    ldutWord msb lsb = encode (.ldut (BitVec.ofNat 8 msb) (BitVec.ofNat 8 lsb)) := by
  apply BitVec.eq_of_toNat_eq
  simp only [ldutWord, encode, toNat_packFields, BitVec.ofNat_eq_ofNat, BitVec.toNat_ofNat]
  omega

theorem ldupWord_eq_encode {msb lsb x : Nat} (hm : msb ≤ 0xFF) (hl : lsb ≤ 0xFF) (hx : x ≤ 0xFF) :
    ldupWord msb lsb x = encode (.ldup (BitVec.ofNat 8 msb) (BitVec.ofNat 8 lsb) (BitVec.ofNat 8 x)) := by
  apply BitVec.eq_of_toNat_eq
  simp only [ldupWord, encode, toNat_packFields, BitVec.ofNat_eq_ofNat, BitVec.toNat_ofNat]
  omega

theorem decode_calwWord {k msb lsb : Nat} (hk : k ≤ 10) (hm : msb ≤ 0xFF) (hl : lsb ≤ 0xFF) :
    decode (calwWord k msb lsb) = .ok (.calw (BitVec.ofNat 4 k) (BitVec.ofNat 8 msb) (BitVec.ofNat 8 lsb)) := by
  have hwf : (BitVec.ofNat 4 k).toNat ≤ 10 := by
    rw [BitVec.toNat_ofNat]
    omega
  rw [calwWord_eq_encode hk hm hl]
  exact decodeOfEncode _ (wellFormed_calw_iff.mpr hwf)

theorem decode_setossWord {o : Nat} (ho : o ≤ 3) : decode (setossWord o) = .ok (.setoss (BitVec.ofNat 2 o)) := by
  rw [setossWord_eq_encode ho]
  exact decodeOfEncode _ rfl

theorem decode_ldutWord {msb lsb : Nat} (hm : msb ≤ 0xFF) (hl : lsb ≤ 0xFF) :
    decode (ldutWord msb lsb) = .ok (.ldut (BitVec.ofNat 8 msb) (BitVec.ofNat 8 lsb)) := by
  rw [ldutWord_eq_encode hm hl]
  exact decodeOfEncode _ rfl

theorem decode_ldupWord {msb lsb x : Nat} (hm : msb ≤ 0xFF) (hl : lsb ≤ 0xFF) (hx : x ≤ 0xFF) :
    decode (ldupWord msb lsb x) = .ok (.ldup (BitVec.ofNat 8 msb) (BitVec.ofNat 8 lsb) (BitVec.ofNat 8 x)) := by
  rw [ldupWord_eq_encode hm hl hx]
  exact decodeOfEncode _ rfl

/-- Settles O46: a line checks its operands' ranges, and in range its word is the word of its command. -/
theorem commandLinesAssemble : Obligations.CommandLinesAssemble := by
  refine ⟨fun k msb lsb hk hm hl => ⟨_, if_pos ⟨hk, hm, hl⟩, decode_calwWord hk hm hl⟩, fun k msb lsb h => if_neg ?_,
    fun o ho => ⟨_, if_pos ho, decode_setossWord ho⟩, fun o ho => if_neg ?_,
    fun msb lsb hm hl => ⟨_, if_pos ⟨hm, hl⟩, decode_ldutWord hm hl⟩, fun msb lsb h => if_neg ?_,
    fun msb lsb x hm hl hx => ⟨_, if_pos ⟨hm, hl, hx⟩, decode_ldupWord hm hl hx⟩, fun msb lsb x h => if_neg ?_,
    rfl, rfl, rfl, rfl⟩
  all_goals omega

/-! ### What a word loads -/

/-- The byte pair of a number below 2^16. -/
theorem v16_ofNat_toNat {v : Nat} (hv : v < 65536) :
    (v16 (BitVec.ofNat 8 (v / 256)) (BitVec.ofNat 8 (v % 256))).toNat = v := by
  rw [v16_toNat, BitVec.toNat_ofNat, BitVec.toNat_ofNat]
  omega

/-- The byte triple of a number below 2^24. -/
theorem raw24_ofNat_toNat {r : Nat} (hr : r < 2 ^ 24) :
    (raw24 (BitVec.ofNat 8 (r / 65536)) (BitVec.ofNat 8 (r / 256 % 256)) (BitVec.ofNat 8 (r % 256))).toNat = r := by
  rw [raw24_toNat, BitVec.toNat_ofNat, BitVec.toNat_ofNat, BitVec.toNat_ofNat]
  omega

theorem issue_calw {w : Word} {k : BitVec 4} {msb lsb : Byte} (hw : decode w = .ok (.calw k msb lsb)) (s : State) :
    issue w s = (s.setCal k.toNat (v16 msb lsb)).setLoaded k.toNat := by
  have heff := issue_effect w s
  generalize issue w s = t at heff ⊢
  rw [hw] at heff
  cases heff
  rfl

theorem issue_ldut {w : Word} {msb lsb : Byte} (hw : decode w = .ok (.ldut msb lsb)) (s : State) :
    issue w s = s.latchUt (v16 msb lsb) := by
  rw [issue, perform_ok hw]
  rfl

theorem issue_ldup {w : Word} {msb lsb xlsb : Byte} (hw : decode w = .ok (.ldup msb lsb xlsb)) (s : State) :
    issue w s = s.latchUp (alignUp (raw24 msb lsb xlsb) s.oss) := by
  rw [issue, perform_ok hw]
  rfl

/-- The word of a CALW line writes its coefficient. -/
theorem issue_calwWord {k msb lsb : Nat} (hk : k ≤ 10) (hm : msb ≤ 0xFF) (hl : lsb ≤ 0xFF) (s : State) :
    issue (calwWord k msb lsb) s = (s.setCal k (v16 (BitVec.ofNat 8 msb) (BitVec.ofNat 8 lsb))).setLoaded k := by
  have hk4 : (BitVec.ofNat 4 k).toNat = k := Nat.mod_eq_of_lt (by omega)
  rw [issue_calw (decode_calwWord hk hm hl), hk4]

theorem setLoaded_bit_same (s : State) {k : Nat} (hk : k ≤ 10) : (s.setLoaded k).loaded.getLsbD k = true := by
  have hbit : (BitVec.twoPow 11 k).getLsbD k = true := by simp [Nat.lt_succ_of_le hk]
  rw [State.setLoaded_loaded, BitVec.getLsbD_or, hbit, Bool.or_true]

theorem setLoaded_bit_kept {s : State} {j : Nat} (h : s.loaded.getLsbD j = true) (k : Nat) :
    (s.setLoaded k).loaded.getLsbD j = true := by
  rw [State.setLoaded_loaded, BitVec.getLsbD_or, h, Bool.true_or]

/-! ### CALV -/

/-- A pattern whose number is `n` modulo 2^16 is read as `n`, where `n` is in the coefficient's range (10_state.md R22). -/
theorem coeffValue_eq_of_calvInRange {k : Nat} {n : Int} (h : calvInRange k n = true) {v : Half}
    (hv : v.toNat = (n % 65536).toNat) : coeffValue k v = n := by
  unfold calvInRange at h
  unfold coeffValue
  split at h
  · next hs =>
    have hr := of_decide_eq_true h
    rw [if_pos hs, sext, BitVec.toInt_eq_toNat_cond, hv]
    split <;> omega
  · next hs =>
    have hr := of_decide_eq_true h
    rw [if_neg hs, zext, hv]
    omega

theorem calvInRange_iff {k : Nat} {n : Int} :
    calvInRange k n = true ↔ if coeffSigned k then -32768 ≤ n ∧ n ≤ 32767 else 0 ≤ n ∧ n ≤ 65535 := by
  unfold calvInRange
  split <;> exact decide_eq_true_iff

theorem calv_loads (k : Fin 11) {n : Int} (h : calvInRange k.val n = true) (s : State) :
    ∃ w, assembleLine (.calv k.val n) = .ok [w] ∧ coeffValue k.val (issue w s).cal[k] = n ∧
      (issue w s).loaded.getLsbD k.val = true := by
  have hk : k.val ≤ 10 := by omega
  refine ⟨_, if_pos ⟨hk, h⟩, ?_⟩
  rw [issue_calwWord hk (by omega) (by omega)]
  refine ⟨coeffValue_eq_of_calvInRange h ?_, setLoaded_bit_same _ hk⟩
  have hv : (n % 65536).toNat < 65536 := by omega
  simpa using v16_ofNat_toNat hv

/-! ### LDUTV and LDUPV -/

theorem ldutv_loads {n : Int} (h0 : 0 ≤ n) (h : n ≤ 65535) (s : State) :
    ∃ w, assembleLine (.ldutv n) = .ok [w] ∧ ((issue w s).ut.toNat : Int) = n ∧ (issue w s).utValid = true := by
  refine ⟨_, if_pos ⟨h0, h⟩, ?_⟩
  rw [issue_ldut (decode_ldutWord (by omega) (by omega)), State.latchUt_ut, v16_ofNat_toNat (by omega)]
  exact ⟨Int.toNat_of_nonneg h0, rfl⟩

theorem ldupv_loads {n : Int} (o : BitVec 2) (h0 : 0 ≤ n) (h : n < 2 ^ (16 + o.toNat)) (s : State) :
    ∃ w, assembleLine (.ldupv n o.toNat) = .ok [w] ∧
      (s.oss = o → ((issue w s).up.toNat : Int) = n ∧ (issue w s).upValid = true) := by
  have ho := o.isLt
  have hr : n.toNat * 2 ^ (8 - o.toNat) < 2 ^ 24 := by
    have hn : n.toNat < 2 ^ (16 + o.toNat) := (Int.toNat_lt h0).mpr (by exact_mod_cast h)
    calc n.toNat * 2 ^ (8 - o.toNat) < 2 ^ (16 + o.toNat) * 2 ^ (8 - o.toNat) := by gcongr
      _ = 2 ^ 24 := by rw [← pow_add]; congr 1; omega
  refine ⟨_, if_pos ⟨by omega, h0, h⟩, ?_⟩
  rintro rfl
  rw [issue_ldup (decode_ldupWord (by omega) (by omega) (by omega)), State.latchUp_up, alignUp_toNat,
    raw24_ofNat_toNat hr, Nat.mul_div_cancel _ (by positivity)]
  exact ⟨Int.toNat_of_nonneg h0, rfl⟩

/-! ### CALIMG -/

/-- The coefficients below `k` are the image's byte pairs, and loaded. -/
def State.HoldsImage (s : State) (image : Vector Byte 22) (k : Nat) : Prop :=
  ∀ j : Fin 11, j.val < k →
    s.cal[j] = v16 image[2 * j.val] image[2 * j.val + 1] ∧ s.loaded.getLsbD j.val = true

theorem State.HoldsImage.issue_next {s : State} {image : Vector Byte 22} {k : Nat} (h : s.HoldsImage image k)
    (hk : k < 11) :
    (issue (calwWord k image[2 * k].toNat image[2 * k + 1].toNat) s).HoldsImage image (k + 1) := by
  have h1 := image[2 * k].isLt
  have h2 := image[2 * k + 1].isLt
  intro j hj
  rw [issue_calwWord (by omega) (by omega) (by omega), BitVec.ofNat_toNat, BitVec.ofNat_toNat, BitVec.setWidth_eq,
    BitVec.setWidth_eq]
  by_cases hjk : j.val = k
  · subst hjk
    exact ⟨Vector.getElem_setIfInBounds_self .., setLoaded_bit_same _ (by omega)⟩
  · obtain ⟨hcal, hloaded⟩ := h j (by omega)
    exact ⟨(Vector.getElem_setIfInBounds_ne j.isLt (Ne.symm hjk)).trans hcal, setLoaded_bit_kept hloaded k⟩

/-- The bytes of an image from index `k` on, as numbers. -/
def imageFrom (image : Vector Byte 22) (k : Nat) : List Nat := (image.toList.drop (2 * k)).map BitVec.toNat

theorem imageFrom_end (image : Vector Byte 22) : imageFrom image 11 = [] := by
  simp [imageFrom]

theorem imageFrom_lt (image : Vector Byte 22) {k : Nat} (hk : k < 11) :
    imageFrom image k = image[2 * k].toNat :: image[2 * k + 1].toNat :: imageFrom image (k + 1) := by
  rw [imageFrom, List.drop_eq_getElem_cons (by simp; omega), List.drop_eq_getElem_cons (by simp; omega)]
  rfl

theorem calimgWords_imageFrom_lt (image : Vector Byte 22) {k : Nat} (hk : k < 11) :
    calimgWords k (imageFrom image k) =
      calwWord k image[2 * k].toNat image[2 * k + 1].toNat :: calimgWords (k + 1) (imageFrom image (k + 1)) := by
  rw [imageFrom_lt image hk, calimgWords]

/-- The words from index `k` on load what is left of the image, by induction from the last index down. -/
theorem calimgWords_load (image : Vector Byte 22) {k : Nat} (hk : k ≤ 11) :
    (calimgWords k (imageFrom image k)).length = 11 - k ∧
    ∀ s : State, s.HoldsImage image k → (issueAll (calimgWords k (imageFrom image k)) s).HoldsImage image 11 := by
  induction hk using Nat.decreasingInduction with
  | self =>
    rw [imageFrom_end]
    exact ⟨rfl, fun s h => h⟩
  | of_succ k hk ih =>
    obtain ⟨hlen, hload⟩ := ih
    rw [calimgWords_imageFrom_lt image hk]
    refine ⟨?_, fun s h => ?_⟩
    · rw [List.length_cons, hlen]
      omega
    · rw [issueAll_cons]
      exact hload _ (h.issue_next hk)

theorem State.HoldsImage.calValid {s : State} {image : Vector Byte 22} (h : s.HoldsImage image 11) :
    s.calValid = true := by
  rw [calValid_iff]
  apply BitVec.eq_of_getLsbD_eq
  intro i hi
  rw [(h ⟨i, hi⟩ hi).2]
  interval_cases i <;> rfl

theorem assembleLine_calimg_image (image : Vector Byte 22) :
    assembleLine (.calimg (image.toList.map BitVec.toNat)) = .ok (0x20000000 :: calimgWords 0 (imageFrom image 0)) := by
  refine if_pos ⟨by simp, ?_⟩
  rw [List.all_map, List.all_eq_true]
  intro b _
  exact decide_eq_true (Nat.le_of_lt_succ b.isLt)

theorem calimg_loads (image : Vector Byte 22) (s : State) :
    ∃ ws, assembleLine (.calimg (image.toList.map BitVec.toNat)) = .ok (0x20000000 :: ws) ∧ ws.length = 11 ∧
      (issueAll (0x20000000 :: ws) s).calValid = true ∧
      ∀ k : Fin 11, (issueAll (0x20000000 :: ws) s).cal[k] = image[2 * k.val] ++ image[2 * k.val + 1] := by
  obtain ⟨hlen, hload⟩ := calimgWords_load image (Nat.zero_le 11)
  have hholds := hload (issue 0x20000000 s) fun j hj => absurd hj (Nat.not_lt_zero _)
  exact ⟨_, assembleLine_calimg_image image, hlen, hholds.calValid, fun k => (hholds k k.isLt).1⟩

theorem assembleLine_calimg_error {bytes : List Nat} (h : bytes.length ≠ 22 ∨ ∃ b ∈ bytes, 0xFF < b) :
    assembleLine (.calimg bytes) = .error .outOfRange := by
  refine if_neg ?_
  rintro ⟨hlen, hall⟩
  obtain hne | ⟨b, hb, hlt⟩ := h
  · exact hne hlen
  · exact hlt.not_ge (of_decide_eq_true (List.all_eq_true.mp hall b hb))

/-- Settles O47: each pseudo-instruction's line checks its range and gives the words of commands that load its
numbers. -/
theorem pseudoInstructionsLoadTheirNumbers : Obligations.PseudoInstructionsLoadTheirNumbers := by
  refine ⟨fun k n s h => calv_loads k (calvInRange_iff.mpr h) s, fun k n h => if_neg ?_, fun k n hk => if_neg ?_,
    fun n s h0 h => ldutv_loads h0 h s, fun n h => if_neg ?_, fun n o s h0 h => ldupv_loads o h0 h s,
    fun n o h => if_neg ?_, calimg_loads, fun bytes h => assembleLine_calimg_error h⟩
  · exact fun hin => h (calvInRange_iff.mp hin.2)
  · omega
  · omega
  · omega

end Sys2Proof.Machine
end

section
/-! PROOFS. The calibration commands (40_calibration.md): what CALW and CALCLR write, and that CAL_VALID is 1 exactly while
every coefficient has been written since LOADED was last cleared. -/

namespace Sys2Proof.Machine

variable {s : State} {w : Word} {ws : List Word}

/-! ### CALW writes one coefficient -/

theorem decode_calw_or_error_of_op (h : fieldOp w = 1) :
    (∃ k msb lsb, decode w = .ok (.calw k msb lsb)) ∨ ∃ e, decode w = .error e := by
  rw [decode_of_op_calw h]
  split_ifs
  · exact .inl ⟨_, _, _, rfl⟩
  · exact .inr ⟨_, rfl⟩
  · exact .inr ⟨_, rfl⟩

theorem decode_eq_calw_iff_toNat {k : BitVec 4} {msb lsb : Byte} :
    decode w = .ok (.calw k msb lsb) ↔
      k.toNat ≤ 10 ∧ w.toNat = 0x10000000 + k.toNat * 2 ^ 24 + msb.toNat * 2 ^ 8 + lsb.toNat := by
  rw [decode_eq_ok_iff, wellFormed_calw_iff, encode_eq_iff_toNat, encode, toNat_packFields]
  simp

theorem exec_calw {k : BitVec 4} (hk : k.toNat ≤ 10) (msb lsb : Byte) (s : State) :
    exec (.calw k msb lsb) s = .next ((s.setCal k.toNat (v16 msb lsb)).setLoaded k.toNat) :=
  if_pos (decide_eq_true hk)

theorem setCal_getElem (s : State) (k : Nat) (v : Half) (j : Fin 11) :
    (s.setCal k v).cal[j] = if j.val = k then v else s.cal[j] := by
  simp only [State.setCal_cal, Fin.getElem_fin, Vector.getElem_setIfInBounds, eq_comm]

theorem setLoaded_getLsbD (s : State) (k : Nat) (j : Fin 11) :
    (s.setLoaded k).loaded.getLsbD j.val = (s.loaded.getLsbD j.val || decide (j.val = k)) := by
  rw [State.setLoaded_loaded, BitVec.getLsbD_or, BitVec.getLsbD_twoPow]
  by_cases hj : j.val = k
  · subst hj
    simp
  · simp [hj, Ne.symm hj]

/-- CAL_VALID asks for the eleven bits of LOADED and no more (10_state.md R24). -/
theorem calValid_of_bits (h : ∀ j : Fin 11, s.loaded.getLsbD j.val = true) : s.calValid = true := by
  rw [calValid_iff]
  refine BitVec.eq_of_getLsbD_eq fun i hi => ?_
  rw [h ⟨i, hi⟩]
  interval_cases i <;> rfl

theorem readPort_status_bit0 (s : State) : (s.readPort 0x00).getLsbD 0 = s.calValid := statusWord_getLsbD s 0

/-- Settles O15: the word is the one whose fields have the numbers of R82's row, and its meaning writes CAL[k] and LOADED
bit k, which was the last clear bit where every other one was 1. -/
theorem calwWritesOneCoefficient : Obligations.CalwWritesOneCoefficient := by
  refine ⟨fun w => decode_calw_or_error_of_op, fun k msb lsb => ⟨fun w => decode_eq_calw_iff_toNat, fun s hk => ?_⟩⟩
  have hloaded := setLoaded_getLsbD (s.setCal k.toNat (v16 msb lsb)) k.toNat
  refine ⟨_, exec_calw hk msb lsb s, fun j => ?_, hloaded, rfl, fun hrest => ?_⟩
  · rw [State.setLoaded_cal, setCal_getElem, apply_ite BitVec.toNat, v16_toNat]
  · refine (readPort_status_bit0 _).trans (calValid_of_bits fun j => ?_)
    rw [hloaded, State.setCal_loaded]
    by_cases hj : j.val = k.toNat
    · simp [hj]
    · simp [hrest j hj]

/-! ### LOADED and CAL over a run of words -/

theorem issue_loaded_of_clears (hw : ClearsLoaded w) (s : State) : (issue w s).loaded = 0 := by
  obtain ⟨-, hclear, -⟩ := loadedBitWriters.2 w s 0
  exact hclear hw

/-- A clear LOADED bit k stays clear under every word but CALW k. -/
theorem issue_loaded_bit_false {k : Fin 11} (hw : ¬ IsCalw (BitVec.ofNat 4 k.val) w)
    (hs : s.loaded.getLsbD k.val = false) : (issue w s).loaded.getLsbD k.val = false := by
  obtain ⟨-, -, hkeep⟩ := loadedBitWriters.2 w s k
  by_cases hc : ClearsLoaded w
  · rw [issue_loaded_of_clears hc]
    exact BitVec.getLsbD_zero
  · rw [hkeep hw hc, hs]

/-- A set LOADED bit k stays set under every word but CALCLR and SRST. -/
theorem issue_loaded_bit_true {k : Fin 11} (hw : ¬ ClearsLoaded w) (hs : s.loaded.getLsbD k.val = true) :
    (issue w s).loaded.getLsbD k.val = true := by
  obtain ⟨hset, -, hkeep⟩ := loadedBitWriters.2 w s k
  by_cases hc : IsCalw (BitVec.ofNat 4 k.val) w
  · exact hset hc
  · rw [hkeep hc hw, hs]

/-- While CALW k is missing, a clear LOADED bit k keeps CAL_VALID at 0. -/
theorem issueAll_calValid_false {k : Fin 11} (hws : ∀ v ∈ ws, ¬ IsCalw (BitVec.ofNat 4 k.val) v)
    (hs : s.loaded.getLsbD k.val = false) : (issueAll ws s).calValid = false :=
  calValid_false_of_bit
    (issueAll_induct (·.loaded.getLsbD k.val = false) ws (fun v hv _ => issue_loaded_bit_false (hws v hv)) hs)

/-- Once CALW k has been issued, LOADED bit k is 1 at the end of a run that does not clear it. -/
theorem issueAll_loaded_bit_true {k : Fin 11} (hws : ∀ v ∈ ws, ¬ ClearsLoaded v)
    (hk : ∃ v ∈ ws, IsCalw (BitVec.ofNat 4 k.val) v) (s : State) : (issueAll ws s).loaded.getLsbD k.val = true := by
  obtain ⟨v, hv, hcalw⟩ := hk
  obtain ⟨us, vs, rfl⟩ := List.append_of_mem hv
  rw [issueAll_append, issueAll_cons]
  refine issueAll_induct (·.loaded.getLsbD k.val = true) vs (fun u hu _ => issue_loaded_bit_true (hws u ?_)) ?_
  · exact List.mem_append_right us (List.mem_cons_of_mem v hu)
  · obtain ⟨hset, -, -⟩ := loadedBitWriters.2 v (issueAll us s) k
    exact hset hcalw

/-- A word that is neither CALW k nor SRST keeps CAL[k]. -/
theorem issue_cal_kept {k : Fin 11} (hw : ¬ IsCalw (BitVec.ofNat 4 k.val) w ∧ decode w ≠ .ok .srst) (s : State) :
    (issue w s).cal[k] = s.cal[k] := by
  by_contra hne
  exact ((coefficientAndOssWriters w s).1 k hne).elim hw.1 hw.2

theorem issue_calw_cal {k : Fin 11} {msb lsb : Byte} (hw : decode w = .ok (.calw (BitVec.ofNat 4 k.val) msb lsb))
    (s : State) : (issue w s).cal[k] = v16 msb lsb := by
  have hk : (BitVec.ofNat 4 k.val).toNat = k.val := Nat.mod_eq_of_lt (by omega)
  rw [issue_calw hw, hk, State.setLoaded_cal, setCal_getElem, if_pos rfl]

/-! ### CALCLR, and the completeness law -/

theorem exec_of_not_calValid (h : s.calValid = false) :
    exec .cmpt s = .next (faultCmpt .calNotLoaded s) ∧ exec .cmpp s = .next (faultCmpp .calNotLoaded s) :=
  ⟨exec_cmpt_error (if_pos h), exec_cmpp_error (if_pos h)⟩

/-- Settles O17: CALCLR leaves every LOADED bit 0, and the bit of a coefficient not written again keeps CAL_VALID at 0. -/
theorem calclrClearsLoadedOnly : Obligations.CalclrClearsLoadedOnly := by
  refine ⟨fun w => (decode_eq_ok_iff_toNat rfl).trans BitVec.toNat_inj,
    fun w hop hne => ⟨_, (decode_of_op_calclr hop).trans (if_neg hne)⟩, fun s => ⟨rfl, fun ws k hws => ?_⟩⟩
  exact exec_of_not_calValid (issueAll_calValid_false hws BitVec.getLsbD_zero)

/-- Settles O32: only CALW k sets LOADED bit k and only CALCLR and SRST clear it; only CALW k and SRST write CAL[k]. -/
theorem calibrationCompleteness : Obligations.CalibrationCompleteness := by
  refine ⟨fun pre post s hclear hall => ?_, fun pre post w k msb lsb s hw hpost => ?_,
    fun pre post w k s hw hpost => ?_, fun ws k s hs hws => issueAll_calValid_false hws hs⟩
  · rw [issueAll_append]
    exact calValid_of_bits fun k => issueAll_loaded_bit_true hclear (hall k) _
  · rw [issueAll_append, issueAll_cons]
    exact issueAll_induct (·.cal[k] = v16 msb lsb) post (fun v hv u hu => (issue_cal_kept (hpost v hv) u).trans hu)
      (issue_calw_cal hw _)
  · rw [issueAll_append, issueAll_cons]
    refine issueAll_calValid_false hpost ?_
    rw [issue_loaded_of_clears hw]
    exact BitVec.getLsbD_zero

end Sys2Proof.Machine
end

section
/-! PROOFS. The mode and raw-input commands (41_input.md): the words of SETOSS, LDUT and LDUP, and what each writes. -/

namespace Sys2Proof.Machine

variable {w : Word} {i : Instr}

/-! ### The words of SETOSS, LDUT and LDUP -/

/-- An OP with one check (30_encoding.md R83) has its command's words and illegal words, and no others. -/
theorem decode_ok_or_error_of_eq_ite {p : Prop} [Decidable p] {e : Illegal}
    (h : decode w = if p then .ok i else .error e) : decode w = .ok i ∨ ∃ e, decode w = .error e := by
  by_cases hp : p
  · exact .inl (h.trans (if_pos hp))
  · exact .inr ⟨e, h.trans (if_neg hp)⟩

theorem decode_eq_setoss_iff_toNat {o : BitVec 2} :
    decode w = .ok (.setoss o) ↔ w.toNat = 0x30000000 + o.toNat * 2 ^ 24 := by
  rw [decode_eq_ok_iff_toNat rfl, encode, toNat_packFields, toNat_zero_append]
  simp

theorem decode_eq_ldut_iff_toNat {msb lsb : Byte} :
    decode w = .ok (.ldut msb lsb) ↔ w.toNat = 0x40000000 + msb.toNat * 2 ^ 8 + lsb.toNat := by
  rw [decode_eq_ok_iff_toNat rfl, encode, toNat_packFields]
  simp

theorem decode_eq_ldup_iff_toNat {msb lsb xlsb : Byte} :
    decode w = .ok (.ldup msb lsb xlsb) ↔
      w.toNat = 0x50000000 + msb.toNat * 2 ^ 16 + lsb.toNat * 2 ^ 8 + xlsb.toNat := by
  rw [decode_eq_ok_iff_toNat rfl, encode, toNat_packFields]
  simp

/-! ### The meanings of SETOSS, LDUT and LDUP -/

theorem exec_setoss (o : BitVec 2) (s : State) : exec (.setoss o) s = .next (s.setOss o).dropUp := rfl

theorem exec_ldut (msb lsb : Byte) (s : State) : exec (.ldut msb lsb) s = .next (s.latchUt (v16 msb lsb)) := rfl

theorem exec_ldup (msb lsb xlsb : Byte) (s : State) :
    exec (.ldup msb lsb xlsb) s = .next (s.latchUp (alignUp (raw24 msb lsb xlsb) s.oss)) := rfl

/-- STATUS bits 7:6 are OSS (10_state.md R32). -/
theorem readPort_status_oss (s : State) : (s.readPort 0x00).extractLsb' 6 2 = s.oss := by
  obtain ⟨-, -, -, -, -, -, hoss, -⟩ := statusWordShowsTheBits s
  exact hoss

/-- At OSS 0 the shift by 8 takes the third byte away. -/
theorem alignUp_raw24_oss_zero (msb lsb x y : Byte) :
    alignUp (raw24 msb lsb x) 0 = alignUp (raw24 msb lsb y) 0 := by
  apply BitVec.eq_of_toNat_eq
  have hx := x.isLt
  have hy := y.isLt
  simp only [alignUp_toNat, raw24_toNat, BitVec.ofNat_eq_ofNat, BitVec.toNat_ofNat, Nat.zero_mod, Nat.sub_zero]
  omega

/-! ### The obligations -/

/-- Settles O20: LDUP latches the bytes' number shifted by the OSS held, and a SETOSS drops it whatever its operand. -/
theorem ldupAlignsTheReading : Obligations.LdupAlignsTheReading := by
  refine ⟨fun w hop => (decode_ok_or_error_of_eq_ite (decode_of_op_ldup hop)).imp_left fun h => ⟨_, _, _, h⟩,
    fun msb lsb xlsb => ⟨fun w => decode_eq_ldup_iff_toNat, fun s => ⟨?_, fun hoss x => ?_⟩⟩⟩
  · refine ⟨_, exec_ldup msb lsb xlsb s, ?_, alignUp_lt _ s.oss, rfl, rfl, fun o => ⟨_, exec_setoss o _, rfl⟩⟩
    rw [State.latchUp_up, alignUp_toNat, raw24_toNat]
  · rw [exec_ldup, exec_ldup, hoss, alignUp_raw24_oss_zero]

/-- Settles O18: SETOSS writes OSS and drops UP without reading either, and STATUS shows the new OSS. -/
theorem setossSetsOssAndDropsUp : Obligations.SetossSetsOssAndDropsUp :=
  ⟨fun _ hop => (decode_ok_or_error_of_eq_ite (decode_of_op_setoss hop)).imp_left fun h => ⟨_, h⟩,
    fun o => ⟨fun _ => decode_eq_setoss_iff_toNat, fun s => ⟨exec_setoss o s, readPort_status_oss _⟩⟩⟩

/-- Settles O19: LDUT latches the number of the byte pair, which is unsigned. -/
theorem ldutLatchesTheReading : Obligations.LdutLatchesTheReading :=
  ⟨fun _ hop => (decode_ok_or_error_of_eq_ite (decode_of_op_ldut hop)).imp_left fun h => ⟨_, _, h⟩,
    fun msb lsb => ⟨fun _ => decode_eq_ldut_iff_toNat,
      fun s => ⟨_, exec_ldut msb lsb s, v16_toNat msb lsb, rfl, rfl⟩⟩⟩

end Sys2Proof.Machine
end

section
/-! PROOFS. The bounds of the stages over every calibration, UT, OSS and p (42_compensation.md R140). -/

namespace Sys2Proof.Machine

variable {cal : Vector Half 11} {ut : Half} {b5 b6 : Int}

/-- The product of x1 (R143). -/
theorem stageX1_product_bounds (cal : Vector Half 11) (ut : Half) :
    -4294836225 ≤ (zext ut - (coeffs cal).ac6) * (coeffs cal).ac5 ∧
      (zext ut - (coeffs cal).ac6) * (coeffs cal).ac5 ≤ 4294836225 := by
  have hut := zext_bounds ut
  have hac5 : 0 ≤ (coeffs cal).ac5 ∧ (coeffs cal).ac5 ≤ 65535 := zext_bounds cal[4]
  have hac6 : 0 ≤ (coeffs cal).ac6 ∧ (coeffs cal).ac6 ≤ 65535 := zext_bounds cal[5]
  have hprod : |(zext ut - (coeffs cal).ac6) * (coeffs cal).ac5| ≤ 65535 * 65535 :=
    abs_mul_le (abs_le.mpr (by omega)) (abs_le.mpr (by omega))
  exact abs_le.mp hprod

theorem stageDen_bounds (cal : Vector Half 11) (ut : Half) :
    -163837 ≤ stageDen (coeffs cal) (zext ut) ∧ stageDen (coeffs cal) (zext ut) ≤ 163835 := by
  have hx1 := stageX1_bounds cal ut
  have hmd : -32768 ≤ (coeffs cal).md ∧ (coeffs cal).md ≤ 32767 := sext_bounds cal[10]
  rw [stageDen]
  omega

theorem shl_mc_bounds (cal : Vector Half 11) :
    -67108864 ≤ shl (coeffs cal).mc 11 ∧ shl (coeffs cal).mc 11 ≤ 67106816 := by
  have hmc : -32768 ≤ (coeffs cal).mc ∧ (coeffs cal).mc ≤ 32767 := sext_bounds cal[9]
  rw [shl]
  omega

/-- Settles O40: each row follows from the row before it by the bounds of a shift and of a truncating division. -/
theorem temperatureStagesBounded : Obligations.TemperatureStagesBounded := fun cal ut =>
  ⟨stageX1_product_bounds cal ut, stageX1_bounds cal ut, stageDen_bounds cal ut, shl_mc_bounds cal,
    fun _ => abs_le.mp (abs_stageX2_le cal _),
    fun _ hb5 => ⟨stageB5_bounds hb5, stageT10_bounds (stageB5_bounds hb5)⟩⟩

/-! ### The pressure half: every bound follows from that of b6 -/

/-- A signed coefficient times a bounded value is bounded by its products at the corners. -/
theorem sext_mul_bounds (v : Half) {y lo hi : Int} (hy : lo ≤ y ∧ y ≤ hi) :
    min (32767 * lo) (-32768 * hi) ≤ sext v * y ∧ sext v * y ≤ max (-32768 * lo) (32767 * hi) := by
  have hv := sext_bounds v
  obtain h | h := le_total 0 y
  · have hle : sext v * y ≤ 32767 * y := mul_le_mul_of_nonneg_right hv.2 h
    have hge : -32768 * y ≤ sext v * y := mul_le_mul_of_nonneg_right hv.1 h
    omega
  · have hle : sext v * y ≤ -32768 * y := mul_le_mul_of_nonpos_right hv.1 h
    have hge : 32767 * y ≤ sext v * y := mul_le_mul_of_nonpos_right hv.2 h
    omega

theorem stageB6_bounds (h : stageB5 (coeffs cal) (zext ut) = .ok b5) :
    -67243933 ≤ stageB6 b5 ∧ stageB6 b5 ≤ 67235932 := by
  have hb5 := stageB5_bounds h
  rw [stageB6]
  omega

section
variable (h : -67243933 ≤ b6 ∧ b6 ≤ 67235932)
include h

theorem b6_mul_self_bounds : 0 ≤ b6 * b6 ∧ b6 * b6 ≤ 4521746525308489 := by
  have habs : |b6 * b6| ≤ 67243933 * 67243933 := abs_mul_le (abs_le.mpr (by omega)) (abs_le.mpr (by omega))
  exact ⟨mul_self_nonneg b6, (abs_le.mp habs).2⟩

theorem stageSq_bounds : 0 ≤ stageSq b6 ∧ stageSq b6 ≤ 1103942022780 :=
  asr_bounds 12 (b6_mul_self_bounds h)

/-- AC2 * b6 (R148) and AC3 * b6 (R150). -/
theorem sext_mul_b6_bounds (v : Half) : -2203381952611 ≤ sext v * b6 ∧ sext v * b6 ≤ 2203449196544 := by
  have hprod := sext_mul_bounds v h
  omega

/-- B2 * sq (R148) and B1 * sq (R150). -/
theorem sext_mul_stageSq_bounds (v : Half) :
    -36173972202455040 ≤ sext v * stageSq b6 ∧ sext v * stageSq b6 ≤ 36172868260432260 := by
  have hprod := sext_mul_bounds v (stageSq_bounds h)
  omega

theorem stageX3_bounds (cal : Vector Half 11) :
    -17664148234575 ≤ stageX3 (coeffs cal) b6 ∧ stageX3 (coeffs cal) b6 ≤ 17663609233217 := by
  have hx1 : -17663072364480 ≤ stageX1p (coeffs cal) b6 ∧ stageX1p (coeffs cal) b6 ≤ 17662533330289 :=
    asr_bounds 11 (sext_mul_stageSq_bounds h cal[7])
  have hx2 : -1075870095 ≤ stageX2p (coeffs cal) b6 ∧ stageX2p (coeffs cal) b6 ≤ 1075902928 :=
    asr_bounds 11 (sext_mul_b6_bounds h cal[1])
  rw [stageX3]
  omega

/-- The dividend of b3 (R149). -/
theorem abs_stageB3_dividend_lt (cal : Vector Half 11) (oss : BitVec 2) :
    |shl ((coeffs cal).ac1 * 4 + stageX3 (coeffs cal) b6) oss.toNat + 2| < 142000000000000 := by
  have hac1 : -32768 ≤ (coeffs cal).ac1 ∧ (coeffs cal).ac1 ≤ 32767 := sext_bounds cal[0]
  have hx3 := stageX3_bounds h cal
  have hoss : oss.toNat = 0 ∨ oss.toNat = 1 ∨ oss.toNat = 2 ∨ oss.toNat = 3 := by omega
  rw [abs_lt, shl]
  obtain ho | ho | ho | ho := hoss <;> rw [ho] <;> omega

/-- The shifted sum of x3' (R150). -/
theorem stageX3p_sum_bounds (cal : Vector Half 11) :
    -552239978912 ≤ stageX1pp (coeffs cal) b6 + stageX2pp (coeffs cal) b6 + 2 ∧
      stageX1pp (coeffs cal) b6 + stageX2pp (coeffs cal) b6 + 2 ≤ 552223142305 := by
  have hx1 : -268967524 ≤ stageX1pp (coeffs cal) b6 ∧ stageX1pp (coeffs cal) b6 ≤ 268975732 :=
    asr_bounds 13 (sext_mul_b6_bounds h cal[2])
  have hx2 : -551971011390 ≤ stageX2pp (coeffs cal) b6 ∧ stageX2pp (coeffs cal) b6 ≤ 551954166571 :=
    asr_bounds 16 (sext_mul_stageSq_bounds h cal[6])
  omega

theorem stageX3p_bounds (cal : Vector Half 11) :
    -138059994728 ≤ stageX3p (coeffs cal) b6 ∧ stageX3p (coeffs cal) b6 ≤ 138055785576 :=
  asr_bounds 2 (stageX3p_sum_bounds h cal)

end

/-- The product of x1''' (R154). -/
theorem stageX1ppp_product_bounds {p : Int} (h : 0 ≤ p ∧ p ≤ 4294967295) :
    0 ≤ asr p 8 * asr p 8 * 3038 ∧ asr p 8 * asr p 8 * 3038 ≤ 855120877308611550 := by
  have hq : 0 ≤ asr p 8 ∧ asr p 8 ≤ 16777215 := asr_bounds 8 h
  have hsq : asr p 8 * asr p 8 ≤ 16777215 * 16777215 := mul_self_le_mul_self hq.1 hq.2
  have hpos : 0 ≤ asr p 8 * asr p 8 := mul_self_nonneg _
  omega

/-- Settles O41: the bound of b6 gives those of the pressure stages, and the bound of a U32 gives those of p's. -/
theorem pressureStagesBounded : Obligations.PressureStagesBounded := by
  intro cal ut oss b5 hb5
  have hb6 := stageB6_bounds hb5
  have hb2sq : |(coeffs cal).b2 * stageSq (stageB6 b5)| < 36200000000000000 := by
    have hprod : -36173972202455040 ≤ (coeffs cal).b2 * stageSq (stageB6 b5) ∧
        (coeffs cal).b2 * stageSq (stageB6 b5) ≤ 36172868260432260 :=
      sext_mul_stageSq_bounds hb6 cal[7]
    rw [abs_lt]
    omega
  refine ⟨hb6, b6_mul_self_bounds hb6, hb2sq, stageX3_bounds hb6 cal, abs_stageB3_dividend_lt hb6 cal oss,
    stageX3p_bounds hb6 cal, fun q => ?_⟩
  have hp := s64_bounds q
  exact ⟨hp, stageX1ppp_product_bounds hp, stageX1ppp_bounds hp, stageX2ppp_bounds hp, stageP_bounds hp⟩

end Sys2Proof.Machine
end

section
/-! PROOFS. The stages on S64 and U32 patterns that wrap are the stages on exact integers (42_compensation.md R140,
R141). One lemma a stage: on the patterns of the exact operands the S64 stage gives the pattern of the exact stage, since
the bound of R140 keeps what it shifts or divides inside S64. -/

namespace Sys2Proof.Machine

/-! ### Patterns of literals -/

theorem ofNat_literal_eq_toS64 (n : Nat) : (OfNat.ofNat n : S64) = toS64 (OfNat.ofNat n) := ofNat_eq_toS64 n

theorem neg_toS64 (a : Int) : -toS64 a = toS64 (-a) := (BitVec.ofInt_neg ..).symm

/-! ### The temperature half -/

section
variable (cal : Vector Half 11) (ut : Half)

theorem stageX1_wide :
    asr64 ((ut.setWidth 64 - coeff64 5 cal[5]) * coeff64 4 cal[4]) 15 = toS64 (stageX1 (coeffs cal) (zext ut)) := by
  have hac5 : coeff64 4 cal[4] = toS64 (coeffs cal).ac5 := coeff64_eq _ _
  have hac6 : coeff64 5 cal[5] = toS64 (coeffs cal).ac6 := coeff64_eq _ _
  have hprod := stageX1_product_bounds cal ut
  rw [setWidth_eq_toS64, hac5, hac6, toS64_sub, toS64_mul, asr64_toS64 15 (by omega), stageX1]

theorem stageDen_wide :
    toS64 (stageX1 (coeffs cal) (zext ut)) + coeff64 10 cal[10] = toS64 (stageDen (coeffs cal) (zext ut)) := by
  have hmd : coeff64 10 cal[10] = toS64 (coeffs cal).md := coeff64_eq _ _
  rw [hmd, toS64_add, stageDen]

theorem stageX2_wide :
    tdiv64 (coeff64 9 cal[9] <<< 11) (toS64 (stageDen (coeffs cal) (zext ut))) =
      toS64 (stageX2 (coeffs cal) (zext ut)) := by
  have hmc : coeff64 9 cal[9] = toS64 (coeffs cal).mc := coeff64_eq _ _
  have hdividend := shl_mc_bounds cal
  have hden := stageDen_bounds cal ut
  rw [hmc, toS64_shl, tdiv64_toS64 (by omega) (by omega), stageX2]

theorem b5Wide_eq : b5Wide cal ut = (stageB5 (coeffs cal) (zext ut)).map toS64 := by
  have hden := stageDen_bounds cal ut
  have hzero : toS64 (stageDen (coeffs cal) (zext ut)) = 0 ↔ stageDen (coeffs cal) (zext ut) = 0 :=
    toS64_eq_zero (by omega)
  simp only [b5Wide, stageB5, stageX1_wide, stageDen_wide, stageX2_wide, toS64_add, hzero]
  split <;> rfl

end

theorem stageT10_wide {b5 : Int} (h : -67239933 ≤ b5 ∧ b5 ≤ 67239932) :
    low32 (asr64 (toS64 b5 + 8) 4) = BitVec.ofInt 32 (stageT10 b5) := by
  rw [ofNat_literal_eq_toS64, toS64_add, asr64_toS64 4 (by omega), low32_toS64, stageT10, u32]

theorem tempWide_eq (cal : Vector Half 11) (ut : Half) :
    tempWide cal ut = (tempOf (coeffs cal) (zext ut)).map (BitVec.ofInt 32) := by
  rw [tempWide, tempOf, b5Wide_eq]
  cases hb5 : stageB5 (coeffs cal) (zext ut) with
  | error e => rfl
  | ok b5 => exact congrArg Except.ok (stageT10_wide (stageB5_bounds hb5))

/-! ### The pressure half -/

section
variable {b6 : Int} (h : -67243933 ≤ b6 ∧ b6 ≤ 67235932)
include h

theorem stageSq_wide : asr64 (toS64 b6 * toS64 b6) 12 = toS64 (stageSq b6) := by
  have hprod := b6_mul_self_bounds h
  rw [toS64_mul, asr64_toS64 12 (by omega), stageSq]

/-- The form of x2' (R148) and x1'' (R150). -/
theorem asr64_sext_mul_b6 (v : Half) (n : Nat) :
    asr64 (toS64 (sext v) * toS64 b6) n = toS64 (asr (sext v * b6) n) := by
  have hprod := sext_mul_b6_bounds h v
  rw [toS64_mul, asr64_toS64 n (by omega)]

/-- The form of x1' (R148) and x2'' (R150). -/
theorem asr64_sext_mul_stageSq (v : Half) (n : Nat) :
    asr64 (toS64 (sext v) * toS64 (stageSq b6)) n = toS64 (asr (sext v * stageSq b6) n) := by
  have hprod := sext_mul_stageSq_bounds h v
  rw [toS64_mul, asr64_toS64 n (by omega)]

theorem stageX3_wide (cal : Vector Half 11) :
    asr64 (coeff64 7 cal[7] * toS64 (stageSq b6)) 11 + asr64 (coeff64 1 cal[1] * toS64 b6) 11 =
      toS64 (stageX3 (coeffs cal) b6) := by
  have hac2 : coeff64 1 cal[1] = toS64 (sext cal[1]) := coeff64_eq _ _
  have hb2 : coeff64 7 cal[7] = toS64 (sext cal[7]) := coeff64_eq _ _
  rw [hac2, hb2, asr64_sext_mul_stageSq h, asr64_sext_mul_b6 h, toS64_add]
  rfl

theorem stageB3_wide (cal : Vector Half 11) (oss : BitVec 2) :
    tdiv64 (((coeff64 0 cal[0] * 4 + toS64 (stageX3 (coeffs cal) b6)) <<< oss.toNat) + 2) 4 =
      toS64 (stageB3 (coeffs cal) b6 oss) := by
  have hac1 : coeff64 0 cal[0] = toS64 (coeffs cal).ac1 := coeff64_eq _ _
  have hdividend := abs_lt.mp (abs_stageB3_dividend_lt h cal oss)
  rw [hac1, ofNat_literal_eq_toS64, ofNat_literal_eq_toS64, toS64_mul, toS64_add, toS64_shl, toS64_add,
    tdiv64_toS64 (by omega) (by omega), stageB3]

theorem stageX3p_wide (cal : Vector Half 11) :
    asr64 (asr64 (coeff64 2 cal[2] * toS64 b6) 13 + asr64 (coeff64 6 cal[6] * toS64 (stageSq b6)) 16 + 2) 2 =
      toS64 (stageX3p (coeffs cal) b6) := by
  have hac3 : coeff64 2 cal[2] = toS64 (sext cal[2]) := coeff64_eq _ _
  have hb1 : coeff64 6 cal[6] = toS64 (sext cal[6]) := coeff64_eq _ _
  have hx1 : asr (sext cal[2] * b6) 13 = stageX1pp (coeffs cal) b6 := rfl
  have hx2 : asr (sext cal[6] * stageSq b6) 16 = stageX2pp (coeffs cal) b6 := rfl
  have hsum := stageX3p_sum_bounds h cal
  rw [hac3, hb1, asr64_sext_mul_stageSq h, asr64_sext_mul_b6 h, hx1, hx2, ofNat_literal_eq_toS64, toS64_add, toS64_add,
    asr64_toS64 2 (by omega), stageX3p]

end

/-- The conversion to U32 reduces modulo 2^32 on both sides, so b4 needs no bound. -/
theorem stageB4_wide (cal : Vector Half 11) (b6 : Int) :
    lsr (low32 (coeff64 3 cal[3]) * low32 (toS64 (stageX3p (coeffs cal) b6) + 32768)) 15 = stageB4 (coeffs cal) b6 := by
  have hac4 : coeff64 3 cal[3] = toS64 (coeffs cal).ac4 := coeff64_eq _ _
  rw [hac4, ofNat_literal_eq_toS64, toS64_add, low32_toS64, low32_toS64, stageB4]

/-- So does b7's, and UP may be any U32. -/
theorem stageB7_wide (up : Word) (b3 : Int) (oss : BitVec 2) :
    low32 (zext64 up - toS64 b3) * ossFactor oss = stageB7 (zext up) b3 oss := by
  rw [zext64_eq, toS64_sub, low32_toS64, stageB7]
  rfl

/-- R154 and R155, for every U32 p. -/
theorem stageP_wide (q : Word) :
    zext64 q +
        asr64 (asr64 (asr64 (zext64 q) 8 * asr64 (zext64 q) 8 * 3038) 16 + asr64 (-7357 * zext64 q) 16 + 3791) 4 =
      toS64 (stageP (s64 q)) := by
  have hq := s64_bounds q
  have hprod := stageX1ppp_product_bounds hq
  have hx1 := stageX1ppp_bounds hq
  have hx2 := stageX2ppp_bounds hq
  rw [zext64_eq, ofNat_literal_eq_toS64, ofNat_literal_eq_toS64, ofNat_literal_eq_toS64, neg_toS64,
    asr64_toS64 8 (by omega), toS64_mul, toS64_mul, asr64_toS64 16 (by omega), ← stageX1ppp,
    toS64_mul, asr64_toS64 16 (by omega), ← stageX2ppp,
    toS64_add, toS64_add, asr64_toS64 4 (by omega), toS64_add, stageP]

theorem presFromB5Wide_toS64 {b5 : Int} (h : -67243933 ≤ stageB6 b5 ∧ stageB6 b5 ≤ 67235932)
    (cal : Vector Half 11) (up : Word) (oss : BitVec 2) :
    presFromB5Wide cal (toS64 b5) up oss = (presFromB5 (coeffs cal) b5 (zext up) oss).map toS64 := by
  have hb6 : toS64 b5 - 4000 = toS64 (stageB6 b5) := by rw [ofNat_literal_eq_toS64, toS64_sub, stageB6]
  simp only [presFromB5Wide, presFromB5, hb6, stageSq_wide h, stageX3_wide h, stageB3_wide h, stageX3p_wide h,
    stageB4_wide, stageB7_wide, stageP_wide]
  split <;> rfl

theorem presWide_eq (cal : Vector Half 11) (ut : Half) (up : Word) (oss : BitVec 2) :
    presWide cal ut up oss = (presOf (coeffs cal) (zext ut) (zext up) oss).map toS64 := by
  rw [presWide, presOf, b5Wide_eq]
  cases hb5 : stageB5 (coeffs cal) (zext ut) with
  | error e => rfl
  | ok b5 => exact presFromB5Wide_toS64 (stageB6_bounds hb5) cal up oss

/-- Settles O42: each wide stage is the pattern of the exact stage, so the two forms test equal divisors for 0 and end in
the patterns of one number. -/
theorem fixedWidthEqualsExact : Obligations.FixedWidthEqualsExact := fun cal ut up oss =>
  ⟨tempWide_eq cal ut, presWide_eq cal ut up oss⟩

end Sys2Proof.Machine
end

section
/-! PROOFS. CMPT and CMPP (42_compensation.md R156 to R159): the checks in their order, the U32 stages as numbers, and
what the results depend on. -/

namespace Sys2Proof.Machine

/-! ### The checks, in their order (R158) -/

section
variable {s : State}

theorem calValid_eq_false (hcal : s.loaded ≠ 0x7FF) : s.calValid = false :=
  Bool.eq_false_iff.mpr (mt (calValid_iff s).mp hcal)

theorem cmptOutcome_of_not_utValid (hcal : s.loaded = 0x7FF) (hut : s.utValid = false) :
    s.cmptOutcome = .error .utNotLoaded := by
  simp [State.cmptOutcome, (calValid_iff s).mpr hcal, hut]

theorem cmptOutcome_of_valid (hcal : s.loaded = 0x7FF) (hut : s.utValid = true) : s.cmptOutcome = s.tempResult := by
  simp [State.cmptOutcome, (calValid_iff s).mpr hcal, hut]

theorem cmppOutcome_of_not_utValid (hcal : s.loaded = 0x7FF) (hut : s.utValid = false) :
    s.cmppOutcome = .error .utNotLoaded := by
  simp [State.cmppOutcome, (calValid_iff s).mpr hcal, hut]

theorem cmppOutcome_of_not_upValid (hcal : s.loaded = 0x7FF) (hut : s.utValid = true) (hup : s.upValid = false) :
    s.cmppOutcome = .error .upNotLoaded := by
  simp [State.cmppOutcome, (calValid_iff s).mpr hcal, hut, hup]

theorem cmppOutcome_of_valid (hcal : s.loaded = 0x7FF) (hut : s.utValid = true) (hup : s.upValid = true) :
    s.cmppOutcome = s.presResult := by
  simp [State.cmppOutcome, (calValid_iff s).mpr hcal, hut, hup]

end

/-! ### The two divisors (R144, R151) -/

section
variable {c : Coeffs} {ut b5 : Int}

theorem stageB5_of_den_ne_zero (h : stageDen c ut ≠ 0) : stageB5 c ut = .ok (stageX1 c ut + stageX2 c ut) := if_neg h

theorem tempOf_of_den_ne_zero (h : stageDen c ut ≠ 0) :
    tempOf c ut = .ok (stageT10 (stageX1 c ut + stageX2 c ut)) := by
  rw [tempOf, stageB5_of_den_ne_zero h]

theorem tempOf_of_den_eq_zero (h : stageDen c ut = 0) : tempOf c ut = .error .divZeroTemp := by
  rw [tempOf, stageB5, if_pos h]

theorem presOf_of_den_ne_zero (h : stageDen c ut ≠ 0) (up : Int) (oss : BitVec 2) :
    presOf c ut up oss = presFromB5 c (stageX1 c ut + stageX2 c ut) up oss := by
  rw [presOf, stageB5_of_den_ne_zero h]

theorem presOf_of_den_eq_zero (h : stageDen c ut = 0) (up : Int) (oss : BitVec 2) :
    presOf c ut up oss = .error .divZeroTemp := by
  rw [presOf, stageB5, if_pos h]

theorem presFromB5_of_b4_ne_zero (h : stageB4 c (stageB6 b5) ≠ 0) (up : Int) (oss : BitVec 2) :
    presFromB5 c b5 up oss =
      .ok (stageP (s64 (stagePq (stageB7 up (stageB3 c (stageB6 b5) oss) oss) (stageB4 c (stageB6 b5))))) :=
  if_neg h

theorem presFromB5_of_b4_eq_zero (h : stageB4 c (stageB6 b5) = 0) (up : Int) (oss : BitVec 2) :
    presFromB5 c b5 up oss = .error .divZeroPres :=
  if_pos h

end

/-! ### The U32 operations and stages, as numbers (R141, R151 to R155) -/

theorem s64_u32 (x : Int) : s64 (u32 x) = x % 4294967296 := by
  rw [s64, u32, BitVec.toNat_ofInt]
  omega

theorem s64_mul (a b : Word) : s64 (a * b) = s64 a * s64 b % 4294967296 := by
  simp [s64]

theorem s64_lsr (a : Word) (n : Nat) : s64 (lsr a n) = Int.fdiv (s64 a) (2 ^ n) := by
  rw [s64, lsr, BitVec.toNat_ushiftRight, Nat.shiftRight_eq_div_pow, Int.fdiv_eq_ediv_of_nonneg _ (by positivity)]
  rfl

theorem s64_udiv (a b : Word) : s64 (udiv a b) = Int.fdiv (s64 a) (s64 b) := by
  rw [Int.fdiv_eq_ediv_of_nonneg _ (s64_bounds b).1, s64, udiv, BitVec.toNat_udiv]
  rfl

theorem s64_eq_zero (a : Word) : s64 a = 0 ↔ a = 0 := by
  rw [s64, Int.natCast_eq_zero, ← BitVec.toNat_inj]
  rfl

/-- AC4 is a U32 already, so its own reduction changes nothing. -/
theorem s64_stageB4 (cal : Vector Half 11) (b6 : Int) :
    s64 (stageB4 (coeffs cal) b6) =
      Int.fdiv ((coeffs cal).ac4 * ((stageX3p (coeffs cal) b6 + 32768) % 4294967296) % 4294967296) 32768 := by
  have hac4 : 0 ≤ (coeffs cal).ac4 ∧ (coeffs cal).ac4 ≤ 65535 := zext_bounds cal[3]
  rw [stageB4, s64_lsr, s64_mul, s64_u32, s64_u32, Int.emod_eq_of_lt hac4.1 (by omega)]
  rfl

theorem s64_stageB7 (up b3 : Int) (oss : BitVec 2) :
    s64 (stageB7 up b3 oss) = (up - b3) % 4294967296 * Int.fdiv 50000 (2 ^ oss.toNat) % 4294967296 := by
  rw [stageB7, s64_mul, s64_u32, ossFactor, s64_lsr]
  rfl

/-- Below the threshold b7 * 2 does not wrap. -/
theorem s64_stagePq (b7 b4 : Word) :
    s64 (stagePq b7 b4) =
      if s64 b7 < 2147483648 then Int.fdiv (s64 b7 * 2) (s64 b4) else Int.fdiv (s64 b7) (s64 b4) * 2 % 4294967296 := by
  have hthreshold : b7 < 0x80000000 ↔ s64 b7 < 2147483648 := by
    rw [BitVec.lt_def, s64]
    norm_cast
  have htwo : s64 2 = 2 := rfl
  have hb7 := s64_bounds b7
  simp only [stagePq, hthreshold]
  split
  · rw [s64_udiv, s64_mul, htwo, Int.emod_eq_of_lt (by omega) (by omega)]
  · rw [s64_mul, s64_udiv, htwo]

theorem stageP_eq_fdiv (p : Int) :
    stageP p = p +
      Int.fdiv (Int.fdiv (Int.fdiv p 256 * Int.fdiv p 256 * 3038) 65536 + Int.fdiv (-7357 * p) 65536 + 3791) 16 := by
  simp only [stageP, stageX1ppp, stageX2ppp, asr_eq_fdiv]
  rfl

/-! ### The results fit their registers (R140) -/

theorem toInt_ofInt_of_cmptOutcome {s : State} {t10 : Int} (h : s.cmptOutcome = .ok t10) :
    (BitVec.ofInt 32 t10).toInt = t10 := by
  have ht10 := cmptOutcome_bounds h
  rw [BitVec.toInt_ofInt]
  exact Int.bmod_eq_of_le (by omega) (by omega)

theorem toInt_ofInt_of_cmppOutcome {s : State} {p : Int} (h : s.cmppOutcome = .ok p) :
    (BitVec.ofInt 64 p).toInt = p := by
  have hp := cmppOutcome_bounds h
  exact toInt_toS64 (by omega)

/-! ### What the commands compute -/

/-- Settles O22: the checks in their order, the stages as the statement's integers, and T10 fits S32. -/
theorem cmptComputesOrFaults : Obligations.CmptComputesOrFaults := by
  refine ⟨fun w => (decode_eq_ok_iff_toNat rfl).trans BitVec.toNat_inj, fun s => ?_⟩
  intro ac5 ac6 mc md x1 b5 t10
  have hx1 : stageX1 (coeffs s.cal) (zext s.ut) = x1 := asr_eq_fdiv _ 15
  have hden : stageDen (coeffs s.cal) (zext s.ut) = x1 + md := congrArg (· + md) hx1
  have hx2 : stageX2 (coeffs s.cal) (zext s.ut) = (mc * 2048).tdiv (x1 + md) := congrArg (mc * 2048).tdiv hden
  have ht10 : stageT10 b5 = t10 := asr_eq_fdiv _ 4
  refine ⟨fun hcal hut hne => ?_, fun hcal => (exec_of_not_calValid (calValid_eq_false hcal)).1,
    fun hcal hut => exec_cmpt_error (cmptOutcome_of_not_utValid hcal hut), fun hcal hut hzero => ?_⟩
  · have hout : s.cmptOutcome = .ok t10 := by
      rw [cmptOutcome_of_valid hcal hut, State.tempResult, tempOf_of_den_ne_zero (hden ▸ hne), hx1, hx2, ht10]
    exact ⟨_, exec_cmpt_ok hout, toInt_ofInt_of_cmptOutcome hout, rfl, rfl, rfl⟩
  · have hout : s.cmptOutcome = .error .divZeroTemp := by
      rw [cmptOutcome_of_valid hcal hut, State.tempResult, tempOf_of_den_eq_zero (hden.trans hzero)]
    exact exec_cmpt_error hout

/-- Settles O23: the checks in their order, the stages as the statement's integers, and P fits S64. -/
theorem cmppComputesOrFaults : Obligations.CmppComputesOrFaults := by
  refine ⟨fun w => (decode_eq_ok_iff_toNat rfl).trans BitVec.toNat_inj, fun s => ?_⟩
  intro ac1 ac2 ac3 ac4 ac5 ac6 b1 b2 mc md x1 b5 b6 sq x3 b3 x3' b4 b7 p q x1''' x2'''
  have hx1 : stageX1 (coeffs s.cal) (zext s.ut) = x1 := asr_eq_fdiv _ 15
  have hden : stageDen (coeffs s.cal) (zext s.ut) = x1 + md := congrArg (· + md) hx1
  have hx2 : stageX2 (coeffs s.cal) (zext s.ut) = (mc * 2048).tdiv (x1 + md) := congrArg (mc * 2048).tdiv hden
  have hb6 : stageB6 b5 = b6 := rfl
  have hsq : stageSq b6 = sq := asr_eq_fdiv _ 12
  have hb3 : stageB3 (coeffs s.cal) b6 s.oss = b3 := by
    simp only [stageB3, stageX3, stageX1p, stageX2p, hsq, asr_eq_fdiv]
    rfl
  have hx3' : stageX3p (coeffs s.cal) b6 = x3' := by
    simp only [stageX3p, stageX1pp, stageX2pp, hsq, asr_eq_fdiv]
    rfl
  have hb4 : s64 (stageB4 (coeffs s.cal) b6) = b4 := by
    rw [s64_stageB4, hx3']
    rfl
  have hb7 : s64 (stageB7 (zext s.up) b3 s.oss) = b7 := s64_stageB7 _ _ _
  have hp : s64 (stagePq (stageB7 (zext s.up) b3 s.oss) (stageB4 (coeffs s.cal) b6)) = p := by
    rw [s64_stagePq, hb7, hb4]
  have hb4zero : stageB4 (coeffs s.cal) (stageB6 b5) = 0 ↔ b4 = 0 := by rw [hb6, ← hb4, s64_eq_zero]
  have hpres (hne : x1 + md ≠ 0) : s.presResult = presFromB5 (coeffs s.cal) b5 (zext s.up) s.oss := by
    rw [State.presResult, presOf_of_den_ne_zero (hden ▸ hne), hx1, hx2]
  refine ⟨fun hcal hut hup hne hb4ne => ?_, fun hcal => (exec_of_not_calValid (calValid_eq_false hcal)).2,
    fun hcal hut => exec_cmpp_error (cmppOutcome_of_not_utValid hcal hut),
    fun hcal hut hup => exec_cmpp_error (cmppOutcome_of_not_upValid hcal hut hup),
    fun hcal hut hup hzero => ?_, fun hcal hut hup hne hzero => ?_⟩
  · have hout : s.cmppOutcome = .ok (stageP p) := by
      rw [cmppOutcome_of_valid hcal hut hup, hpres hne, presFromB5_of_b4_ne_zero (mt hb4zero.mp hb4ne), hb6, hb3, hp]
    exact ⟨_, exec_cmpp_ok hout, (toInt_ofInt_of_cmppOutcome hout).trans (stageP_eq_fdiv p), rfl, rfl, rfl, rfl⟩
  · have hout : s.cmppOutcome = .error .divZeroTemp := by
      rw [cmppOutcome_of_valid hcal hut hup, State.presResult, presOf_of_den_eq_zero (hden.trans hzero)]
    exact exec_cmpp_error hout
  · have hout : s.cmppOutcome = .error .divZeroPres := by
      rw [cmppOutcome_of_valid hcal hut hup, hpres hne, presFromB5_of_b4_eq_zero (hb4zero.mpr hzero)]
    exact exec_cmpp_error hout

/-! ### What the results depend on (R159) -/

section
variable {s t : State}

/-- Two files that agree but for MB are one file with two MBs. -/
theorem withMb_cal_eq (hcal : ∀ k : Fin 11, k.val ≠ 8 → s.cal[k] = t.cal[k]) : (s.withMb t.cal[8]).cal = t.cal := by
  refine Vector.ext fun i hi => ?_
  rw [State.withMb, Vector.getElem_set]
  split
  next h => subst h; rfl
  next h => exact hcal ⟨i, hi⟩ (Ne.symm h)

theorem tempResult_eq (hcal : ∀ k : Fin 11, k.val ≠ 8 → s.cal[k] = t.cal[k]) (hut : s.ut = t.ut) :
    s.tempResult = t.tempResult := by
  rw [← tempResult_withMb s t.cal[8], State.tempResult, withMb_cal_eq hcal, State.tempResult, ← hut]
  rfl

theorem presResult_eq (hcal : ∀ k : Fin 11, k.val ≠ 8 → s.cal[k] = t.cal[k]) (hut : s.ut = t.ut) (hup : s.up = t.up)
    (hoss : s.oss = t.oss) : s.presResult = t.presResult := by
  rw [← presResult_withMb s t.cal[8], State.presResult, withMb_cal_eq hcal, State.presResult, ← hut, ← hup, ← hoss]
  rfl

theorem exec_cmpt_of_cmptOutcome_eq (h : s.cmptOutcome = t.cmptOutcome) :
    ∃ s' t', exec .cmpt s = .next s' ∧ exec .cmpt t = .next t' ∧ s'.tValid = t'.tValid ∧
      (s'.tValid = true → s'.temp = t'.temp) := by
  obtain ⟨c, hc, he⟩ | ⟨t10, hc, he⟩ := execCmpt_cases s
  · exact ⟨_, _, he, exec_cmpt_error (h.symm.trans hc), rfl, nofun⟩
  · exact ⟨_, _, he, exec_cmpt_ok (h.symm.trans hc), rfl, fun _ => rfl⟩

theorem exec_cmpp_of_cmppOutcome_eq (h : s.cmppOutcome = t.cmppOutcome) :
    ∃ s' t', exec .cmpp s = .next s' ∧ exec .cmpp t = .next t' ∧ s'.pValid = t'.pValid ∧
      (s'.pValid = true → s'.pres = t'.pres) := by
  obtain ⟨c, hc, he⟩ | ⟨p, hc, he⟩ := execCmpp_cases s
  · exact ⟨_, _, he, exec_cmpp_error (h.symm.trans hc), rfl, nofun⟩
  · exact ⟨_, _, he, exec_cmpp_ok (h.symm.trans hc), rfl, fun _ => rfl⟩

end

/-- Settles O44: past the checks each outcome is a function of the coefficients but MB and of the latched readings. -/
theorem resultsDependOnTheInputsOnly : Obligations.ResultsDependOnTheInputsOnly := by
  intro s t hcal hs ht hut hsut htut
  refine ⟨exec_cmpt_of_cmptOutcome_eq ?_, fun hup hoss hsup htup => exec_cmpp_of_cmppOutcome_eq ?_⟩
  · rw [cmptOutcome_of_valid hs hsut, cmptOutcome_of_valid ht htut, tempResult_eq hcal hut]
  · rw [cmppOutcome_of_valid hs hsut hsup, cmppOutcome_of_valid ht htut htup, presResult_eq hcal hut hup hoss]

end Sys2Proof.Machine
end

section
/-! PROOFS. SRST (43_control.md R200): what it resets, its one word, and that no other word clears a fault register. -/

namespace Sys2Proof.Machine

variable {s t : State} {d : Except Illegal Instr}

theorem decode_eq_srst_iff {w : Word} : decode w = .ok .srst ↔ w = 0xF00000B6 :=
  (decode_eq_ok_iff_toNat rfl).trans BitVec.toNat_inj

/-- Recording a fault only sets bits of FAULT_MASK, so a word but SRST leaves it nonzero where it was. -/
theorem Effect.faultMask_ne_zero (h : Effect s d t) (hd : d ≠ .ok .srst) (hs : s.faultMask ≠ 0) : t.faultMask ≠ 0 := by
  obtain ⟨-, hmask⟩ | ⟨c, -, hmask⟩ := h.faultRegisters hd
  · rwa [hmask]
  · rw [hmask, raiseFault_faultMask]
    exact fun hzero => hs (BitVec.or_eq_zero_iff.mp hzero).1

/-- Settles O21: SRST leaves a reset block, OP 15 decodes by the whole word, and every other effect keeps a recorded
fault. -/
theorem srstResetsTheBlock : Obligations.SrstResetsTheBlock := by
  refine ⟨fun s => ⟨s.resetBlock, rfl, resetBlock_allZero s, resetBlock_readPort s 0x00⟩, fun w => decode_eq_srst_iff,
    fun w s hop hw => ?_, fun w s hw => ?_⟩
  · exact perform_error ((decode_of_op_srst hop).trans (if_neg hw)) s
  · have hd : decode w ≠ .ok .srst := mt decode_eq_srst_iff.mp hw
    have heff := issue_effect w s
    refine ⟨fun hs => ?_, heff.faultMask_ne_zero hd⟩
    rwa [heff.faultFirst_sticky hd hs]

end Sys2Proof.Machine
end

section
/-! PROOFS. How the steps of a host operation compose, and what its operations do on a closed channel or a closed driver
(44_host_protocol.md R226, R227, R241). -/

namespace Sys2Proof.Machine

variable {d : Config.Delays} {w w' w1 : World}

/-! ### Composition -/

@[simp] theorem HostRun.andThen_returned {α β : Type} (a : α) (w : World) (f : α → World → HostRun β) :
    (HostRun.returned a w).andThen f = f a w := rfl

/-- A composed operation returns where both of its parts do. -/
theorem HostRun.andThen_eq_returned {α β : Type} {m : HostRun α} {f : α → World → HostRun β} {b : β} :
    m.andThen f = .returned b w' ↔ ∃ a w1, m = .returned a w1 ∧ f a w1 = .returned b w' := by
  cases m <;> simp [HostRun.andThen]

/-- What the six reads of R221 to R223 are, at their length and their reading of the first byte. -/
def World.readNumber (d : Config.Delays) (first : Byte → Int) (n : Nat) (r : Byte) (w : World) : HostRun (Option Int) :=
  (w.readBytes d n r).andThen fun bs w1 => .returned (bs.map (composeBytes first)) w1

theorem World.readNumber_of_readBytes {n : Nat} {r : Byte} {bs : Option (List Byte)}
    (h : w.readBytes d n r = .returned bs w1) (first : Byte → Int) :
    w.readNumber d first n r = .returned (bs.map (composeBytes first)) w1 := by
  rw [World.readNumber, h, HostRun.andThen_returned]

theorem World.readBytes_of_readByte_none {r : Byte} (h : w.readByte d r = .returned none w1) (n : Nat) :
    w.readBytes d (n + 1) r = .returned none w1 := by
  rw [World.readBytes, h, HostRun.andThen_returned]

theorem World.readBytes_of_readByte_some {n : Nat} {r b : Byte} {bs : Option (List Byte)}
    (h : w.readByte d r = .returned (some b) w1) (hs : w1.readBytes d n (r + 1) = .returned bs w') :
    w.readBytes d (n + 1) r = .returned (bs.map (b :: ·)) w' := by
  rw [World.readBytes, h, HostRun.andThen_returned]
  simp only [hs, HostRun.andThen_returned]

/-! ### A closed channel -/

theorem World.readBytes_of_closed (h : w.channel = none) (n : Nat) (r : Byte) :
    w.readBytes d (n + 1) r = .returned none w :=
  World.readBytes_of_readByte_none (by rw [World.readByte, h]) n

theorem World.closeBus_of_closed (h : w.channel = none) : w.closeBus = w := by
  rw [World.closeBus, h]

/-- Settles O49: each read begins with a byte read, and that and the write look at the channel first. -/
theorem closedChannelTouchesNothing : Obligations.ClosedChannelTouchesNothing := by
  intro d w r v h
  have hread : ∀ (first : Byte → Int) (n : Nat), w.readNumber d first (n + 1) r = .returned none w := fun first n =>
    World.readNumber_of_readBytes (World.readBytes_of_closed h n r) first
  exact ⟨hread zext 0, hread sext 0, hread zext 1, hread sext 1, hread zext 2, hread sext 2,
    by rw [World.writeUInt8, h], World.closeBus_of_closed h⟩

/-! ### Closing the channel -/

theorem World.closeBus_channel (w : World) : w.closeBus.channel = none := by
  unfold World.closeBus
  split
  · assumption
  · rfl

/-- Closing records a release at most, and changes the channel alone besides. -/
theorem World.closeBus_frame (w : World) :
    { w.closeBus with channel := w.channel, trace := w.trace } = w ∧
      issuedWords w.closeBus.trace = issuedWords w.trace := by
  unfold World.closeBus
  split
  · exact ⟨rfl, rfl⟩
  · exact ⟨rfl, by simp [World.log, issuedWords]⟩

/-! ### A closed driver -/

theorem World.readTemperature_of_closed (h : w.driverOpen = false) : w.readTemperature d = .returned .nan w := if_pos h

theorem World.readPressure_of_closed (h : w.driverOpen = false) : w.readPressure d = .returned .nan w := if_pos h

theorem Reading.same_self (b : Long) : (Reading.number b).same (.number b) = true := by
  simp [Reading.same]

/-- Settles O50: each operation of the driver looks at driver.open first. -/
theorem closedDriverReturnsNan : Obligations.ClosedDriverReturnsNan :=
  ⟨fun _ _ h => ⟨World.readTemperature_of_closed h, World.readPressure_of_closed h, if_pos h⟩, rfl, Reading.same_self⟩

theorem World.closeDriver_block (w : World) : w.closeDriver.block = w.block :=
  (congrArg World.block w.closeBus_frame.1 :)

theorem World.closeDriver_closeDriver (w : World) : w.closeDriver.closeDriver = w.closeDriver := by
  rw [World.closeDriver, World.closeBus_of_closed (w := w.closeDriver) w.closeBus_channel]
  rfl

/-- Settles O57: CLOSE leaves a closed channel and a closed driver. -/
theorem closeKeepsTheBlock : Obligations.CloseKeepsTheBlock := fun _ w =>
  ⟨World.readTemperature_of_closed rfl, World.readPressure_of_closed rfl, w.closeDriver_block, w.closeBus_channel, rfl,
    w.closeDriver_closeDriver, rfl⟩

end Sys2Proof.Machine
end

section
/-! PROOFS. The bus steps one after another (44_host_protocol.md R224, R225): an operation on an open channel passes where its
steps succeed and stops at the first that fails, and none of its steps is a command of the block. -/

namespace Sys2Proof.Machine

variable {d : Config.Delays} {w w' : World} {rest : List BusFate}

/-! ### What bus steps leave -/

/-- What bus steps and waits, whatever their fates, change nothing of: the block, the channel and the driver. The trace grows
by events of which none is a command. -/
structure World.BusOnly (w w' : World) : Prop where
  block : w'.block = w.block
  channel : w'.channel = w.channel
  driverOpen : w'.driverOpen = w.driverOpen
  trace : ∃ events, w'.trace = w.trace ++ events ∧ ∀ word, Event.issued word ∉ events

theorem World.BusOnly.refl (w : World) : w.BusOnly w := ⟨rfl, rfl, rfl, [], by simp⟩

theorem World.BusOnly.trans {w1 w2 : World} (h : w.BusOnly w1) (g : w1.BusOnly w2) : w.BusOnly w2 := by
  obtain ⟨es, hes, hno⟩ := h.trace
  obtain ⟨fs, hfs, gno⟩ := g.trace
  refine ⟨g.block.trans h.block, g.channel.trans h.channel, g.driverOpen.trans h.driverOpen, es ++ fs, ?_, ?_⟩
  · rw [hfs, hes, List.append_assoc]
  · simp [hno, gno]

theorem World.busStep_of_script {f : BusFate} (h : w.script = f :: rest) (e : Event) :
    w.busStep e = (f, { w.log e with script := rest }) := by
  simp [World.busStep, h]

/-! ### The trigger of a conversion -/

/-- The control value that starts a conversion (30_encoding.md R86). -/
def Measurement.command : Measurement → Byte
  | .temperature => 0x2E
  | .pressure oss => pressureCommand oss

theorem controlCommand_command (m : Measurement) : controlCommand m.command = some m := by
  cases m with
  | temperature => rfl
  | pressure oss => revert oss; decide

/-- A conversion is a trigger, its wait, and as many bytes as it has result registers (R228, R229). -/
theorem World.convert_eq (d : Config.Delays) (m : Measurement) (w : World) :
    w.convert d m = (w.writeUInt8 d 0xF4 m.command).andThen fun ok w1 =>
      if ok then (w1.wait d (.settle m)).readNumber d zext m.width 0xF6 else .returned none w1 := by
  cases m <;> rfl

theorem World.writeUInt8_trigger (m : Measurement) (hc : w.channel.isSome = true) (h : w.script.headD .ok = .ok) :
    w.writeUInt8 d 0xF4 m.command = .returned true
      { w.log (.writePair 0xF4 m.command) with script := w.script.tail, device := w.device.start d m } := by
  obtain ⟨c, hc⟩ := Option.isSome_iff_exists.mp hc
  simp only [World.writeUInt8, hc, World.busStep, h, Device.write, controlCommand_command]
  rfl

theorem World.convert_of_trigger_fails (m : Measurement) (hc : w.channel.isSome = true) (h : w.script = .fail :: rest) :
    w.convert d m = .returned none
      { w.log (.writePair 0xF4 m.command) with script := rest, device := w.device.spoil } := by
  obtain ⟨c, hc⟩ := Option.isSome_iff_exists.mp hc
  rw [World.convert_eq, World.writeUInt8, hc]
  simp only [World.busStep_of_script h]
  rfl

/-! ### A byte read -/

theorem Device.resultByte_ne_notNamed (d : Config.Delays) (dev : Device) (i : Nat) : dev.resultByte d i ≠ .notNamed := by
  unfold Device.resultByte
  repeat' split
  all_goals nofun

/-- A result register always answers with a byte (20_memory.md R54). -/
theorem World.deviceByte_result {r : Byte} (h : 0xF6 ≤ r.toNat ∧ r.toNat ≤ 0xF8) (d : Config.Delays) (w : World) :
    ∃ b n, w.deviceByte d r = .returned (some b) { w with nextFree := n } := by
  have hr : w.device.read d r ≠ .notNamed := by
    rw [Device.read, if_neg (by omega), if_pos h]
    split
    · exact Device.resultByte_ne_notNamed d w.device _
    · nofun
  unfold World.deviceByte
  split
  · exact ⟨_, w.nextFree, rfl⟩
  · exact ⟨_, _, rfl⟩
  · contradiction

/-- The world once both bus steps of a byte read have been tried, with the fates then left. -/
def World.readBack (d : Config.Delays) (r : Byte) (rest : List BusFate) (w : World) : World :=
  { ((w.log (.writeAddress r)).wait d .registerTurnaround).log (.readBack r) with script := rest }

theorem World.busOnly_readBack (r : Byte) (rest : List BusFate) (w : World) : w.BusOnly (w.readBack d r rest) :=
  ⟨rfl, rfl, rfl, [.writeAddress r, .waited .registerTurnaround d.registerTurnaround, .readBack r],
    by simp [World.readBack, World.wait, World.log, Delay.amount], by simp⟩

theorem World.readByte_passes {r : Byte} (hr : 0xF6 ≤ r.toNat ∧ r.toNat ≤ 0xF8) (hc : w.channel.isSome = true)
    (h : w.script = .ok :: .ok :: rest) :
    ∃ b w', w.readByte d r = .returned (some b) w' ∧ w.BusOnly w' ∧ w'.script = rest := by
  obtain ⟨c, hc⟩ := Option.isSome_iff_exists.mp hc
  obtain ⟨b, n, hb⟩ := World.deviceByte_result hr d (w.readBack d r rest)
  refine ⟨b, { w.readBack d r rest with nextFree := n }, ?_, { w.busOnly_readBack r rest with }, rfl⟩
  rw [World.readByte, hc]
  simp only [World.busStep_of_script h]
  exact hb

theorem World.readByte_fails (r : Byte) (hc : w.channel.isSome = true) {n : Nat} (hn : n < 2)
    (h : w.script = List.replicate n .ok ++ .fail :: rest) :
    ∃ w', w.readByte d r = .returned none w' ∧ w.BusOnly w' ∧ w'.script = rest := by
  obtain ⟨c, hc⟩ := Option.isSome_iff_exists.mp hc
  interval_cases n
  · refine ⟨{ w.log (.writeAddress r) with script := rest }, ?_, ⟨rfl, rfl, rfl, [.writeAddress r], rfl, by simp⟩, rfl⟩
    rw [World.readByte, hc]
    simp only [World.busStep_of_script h]
  · refine ⟨w.readBack d r rest, ?_, w.busOnly_readBack r rest, rfl⟩
    rw [World.readByte, hc]
    simp only [World.busStep_of_script h]
    rfl

/-! ### Result bytes -/

theorem World.readBytes_passes (n : Nat) : ∀ {w : World} {r : Byte}, 0xF6 ≤ r.toNat → r.toNat + n ≤ 0xF9 →
    w.channel.isSome = true → w.script = List.replicate (2 * n) .ok ++ rest →
    ∃ bs w', w.readBytes d n r = .returned (some bs) w' ∧ w.BusOnly w' ∧ w'.script = rest := by
  induction n with
  | zero => exact fun {w} _ _ _ _ h => ⟨[], w, rfl, .refl w, h⟩
  | succ n ih =>
    intro w r hr hn hc h
    obtain ⟨b, w1, e1, q1, s1⟩ := World.readByte_passes (d := d) (r := r) (by omega) hc h
    have hnext : (r + 1).toNat = r.toNat + 1 := by simp; omega
    obtain ⟨bs, w2, e2, q2, s2⟩ := ih (w := w1) (r := r + 1) (by omega) (by omega) (by rw [q1.channel, hc]) s1
    exact ⟨_, w2, World.readBytes_of_readByte_some e1 e2, q1.trans q2, s2⟩

theorem World.readBytes_fails (n : Nat) : ∀ {w : World} {r : Byte} {k : Nat}, 0xF6 ≤ r.toNat → r.toNat + n ≤ 0xF9 →
    w.channel.isSome = true → k < 2 * n → w.script = List.replicate k .ok ++ .fail :: rest →
    ∃ w', w.readBytes d n r = .returned none w' ∧ w.BusOnly w' ∧ w'.script = rest := by
  induction n with
  | zero => exact fun _ _ _ hk _ => absurd hk (Nat.not_lt_zero _)
  | succ n ih =>
    intro w r k hr hn hc hk h
    by_cases hk2 : k < 2
    · obtain ⟨w1, e1, q1, s1⟩ := World.readByte_fails (d := d) r hc hk2 h
      exact ⟨w1, World.readBytes_of_readByte_none e1 n, q1, s1⟩
    · obtain ⟨j, rfl⟩ := Nat.exists_eq_add_of_le' (not_lt.mp hk2)
      obtain ⟨b, w1, e1, q1, s1⟩ := World.readByte_passes (d := d) (r := r) (by omega) hc h
      have hnext : (r + 1).toNat = r.toNat + 1 := by simp; omega
      obtain ⟨w2, e2, q2, s2⟩ := ih (w := w1) (r := r + 1) (by omega) (by omega) (by rw [q1.channel, hc]) (by omega) s1
      exact ⟨w2, World.readBytes_of_readByte_some e1 e2, q1.trans q2, s2⟩

/-! ### Conversions -/

theorem Measurement.width_le (m : Measurement) : m.width ≤ 3 := by
  cases m <;> simp [Measurement.width]

/-- The world that reads the result of a conversion whose trigger succeeded. -/
def World.triggered (d : Config.Delays) (m : Measurement) (w : World) : World :=
  { w.log (.writePair 0xF4 m.command) with script := w.script.tail, device := w.device.start d m }.wait d (.settle m)

theorem World.busOnly_triggered (m : Measurement) (w : World) : w.BusOnly (w.triggered d m) :=
  ⟨rfl, rfl, rfl, [.writePair 0xF4 m.command, .waited (.settle m) (m.settle d)],
    by simp [World.triggered, World.wait, World.log, Delay.amount], by simp⟩

theorem World.convert_of_readBytes {m : Measurement} {bs : Option (List Byte)} (hc : w.channel.isSome = true)
    (h : w.script.headD .ok = .ok) (hb : (w.triggered d m).readBytes d m.width 0xF6 = .returned bs w') :
    w.convert d m = .returned (bs.map (composeBytes zext)) w' := by
  rw [World.convert_eq, World.writeUInt8_trigger m hc h]
  exact World.readNumber_of_readBytes hb zext

theorem World.convert_passes (m : Measurement) (hc : w.channel.isSome = true)
    (h : w.script = List.replicate (2 * m.width + 1) .ok ++ rest) :
    ∃ x w', w.convert d m = .returned (some x) w' ∧ w.BusOnly w' ∧ w'.script = rest := by
  have hq := w.busOnly_triggered (d := d) m
  have := m.width_le
  obtain ⟨bs, w1, e, q, s⟩ := World.readBytes_passes (d := d) m.width (w := w.triggered d m) (r := 0xF6) (rest := rest)
    (by decide) (by simp; omega) (by rw [hq.channel, hc]) (congrArg List.tail h)
  exact ⟨_, w1, World.convert_of_readBytes hc (by rw [h]; rfl) e, hq.trans q, s⟩

theorem World.convert_of_read_fails (m : Measurement) (hc : w.channel.isSome = true) {k : Nat} (hk : k < 2 * m.width)
    (h : w.script = List.replicate (k + 1) .ok ++ .fail :: rest) :
    ∃ w', w.convert d m = .returned none w' ∧ w.BusOnly w' ∧ w'.script = rest := by
  have hq := w.busOnly_triggered (d := d) m
  have := m.width_le
  obtain ⟨w1, e, q, s⟩ := World.readBytes_fails (d := d) m.width (w := w.triggered d m) (r := 0xF6) (rest := rest)
    (by decide) (by simp; omega) (by rw [hq.channel, hc]) hk (congrArg List.tail h)
  exact ⟨w1, World.convert_of_readBytes hc (by rw [h]; rfl) e, hq.trans q, s⟩

/-! ### The accessors, by what their conversions return -/

/-- The LDUT of a temperature reading (R233, R234). -/
def World.loadTemperature (x : Int) (w : World) : World := w.issue (encode (.ldut (byteOf x 1) (byteOf x 0)))

theorem World.loadTemperature_block (x : Int) (w : World) :
    (w.loadTemperature x).block = w.block.latchUt (v16 (byteOf x 1) (byteOf x 0)) :=
  issue_ldut (decodeOfEncode _ rfl) w.block

section
variable (ho : w.driverOpen = true)
include ho

theorem World.readTemperature_of_convert_none (h : w.convert d .temperature = .returned none w') :
    w.readTemperature d = .returned .nan w' := by
  rw [World.readTemperature, if_neg (by simp [ho]), h, HostRun.andThen_returned]

theorem World.readPressure_of_convert_none (h : w.convert d .temperature = .returned none w') :
    w.readPressure d = .returned .nan w' := by
  rw [World.readPressure, if_neg (by simp [ho]), h, HostRun.andThen_returned]

theorem World.readPressure_of_second_convert_none {x : Int} {w1 : World}
    (h : w.convert d .temperature = .returned (some x) w1)
    (h2 : (w1.loadTemperature x).convert d (.pressure 0) = .returned none w') :
    w.readPressure d = .returned .nan w' := by
  rw [World.loadTemperature] at h2
  rw [World.readPressure, if_neg (by simp [ho]), h, HostRun.andThen_returned]
  simp only [h2, HostRun.andThen_returned]

end

/-! ### A step that fails -/

/-- Where READP's first conversion takes its five steps, its second begins after the LDUT. -/
theorem World.first_conversion_passes (hc : w.channel.isSome = true) (h : w.script = List.replicate 5 .ok ++ rest) :
    ∃ x w1 before, w.convert d .temperature = .returned (some x) w1 ∧ (w1.loadTemperature x).channel.isSome = true ∧
      (w1.loadTemperature x).script = rest ∧
      (w1.loadTemperature x).trace = w.trace ++ before ++ [.issued (encode (.ldut (byteOf x 1) (byteOf x 0)))] ∧
      (∀ word, .issued word ∉ before) ∧
      (w1.loadTemperature x).block = { w.block with ut := byteOf x 1 ++ byteOf x 0, utValid := true } := by
  obtain ⟨x, w1, e, q, s⟩ := World.convert_passes (d := d) .temperature hc h
  obtain ⟨before, htrace, hno⟩ := q.trace
  exact ⟨x, w1, before, e, q.channel ▸ hc, s, congrArg (· ++ _) htrace, hno,
    (w1.loadTemperature_block x).trans (congrArg (State.latchUt · _) q.block)⟩

/-- Settles O51: a conversion whose trigger fails adds that write to the trace and stops. -/
theorem failedTriggerReadsNothing : Obligations.FailedTriggerReadsNothing := by
  intro d w rest ho hc
  refine ⟨fun h => ?_, fun h => ?_⟩
  · have e := World.convert_of_trigger_fails (d := d) .temperature hc h
    exact ⟨_, World.readTemperature_of_convert_none ho e, World.readPressure_of_convert_none ho e, rfl, rfl⟩
  · obtain ⟨x, w1, events, e, hc1, h1, htrace, hno, hblock⟩ := World.first_conversion_passes (d := d) hc h
    have e2 := World.convert_of_trigger_fails (d := d) (.pressure 0) hc1 h1
    refine ⟨_, events, byteOf x 1, byteOf x 0, World.readPressure_of_second_convert_none ho e e2, rfl, ?_, hno, hblock⟩
    exact (congrArg (· ++ _) htrace).trans (List.append_assoc ..)

/-- Settles O60: the conversion whose read fails returns none there, and the accessor stops with it. -/
theorem failedResultReadReturnsNan : Obligations.FailedResultReadReturnsNan := by
  intro d w n rest ho hc h
  refine ⟨fun h1 h4 => ?_, fun h6 h11 => ?_⟩
  · obtain ⟨k, rfl⟩ := Nat.exists_eq_add_of_le' h1
    obtain ⟨w', e, q, s⟩ := World.convert_of_read_fails (d := d) .temperature hc (k := k) (Nat.lt_of_succ_le h4) h
    obtain ⟨events, htrace, hno⟩ := q.trace
    exact ⟨w', events, World.readTemperature_of_convert_none ho e, World.readPressure_of_convert_none ho e, s, htrace, hno,
      q.block⟩
  · obtain ⟨k, rfl⟩ := Nat.exists_eq_add_of_le h6
    have hsplit : w.script = List.replicate 5 .ok ++ (List.replicate (k + 1) .ok ++ .fail :: rest) := by
      rw [h, ← List.append_assoc, List.replicate_append_replicate]
      congr 2
      omega
    obtain ⟨x, w1, before, e, hc1, h1, htrace, hno, hblock⟩ := World.first_conversion_passes (d := d) hc hsplit
    obtain ⟨w', e2, q2, s2⟩ := World.convert_of_read_fails (d := d) (.pressure 0) hc1 (k := k)
      (show k < 6 by omega) h1
    obtain ⟨after, htrace2, hno2⟩ := q2.trace
    refine ⟨w', before, after, byteOf x 1, byteOf x 0, World.readPressure_of_second_convert_none ho e e2, s2, ?_, ?_,
      q2.block.trans hblock⟩
    · rw [htrace2, htrace, List.append_assoc _ [_], List.singleton_append]
    · simp [hno, hno2]

end Sys2Proof.Machine
end

section
/-! PROOFS. Big-endian numbers (44_host_protocol.md R221 to R223): what the reads compose, and the bytes the driver takes
from them again (R231, R233, R234). -/

namespace Sys2Proof.Machine

variable {d : Config.Delays} {w : World}

/-! ### The numbers -/

theorem composeBytes_zext_two (b0 b1 : Byte) : composeBytes zext [b0, b1] = (v16 b0 b1).toNat := by
  rw [v16_toNat]
  rfl

theorem composeBytes_zext_three (b0 b1 b2 : Byte) : composeBytes zext [b0, b1, b2] = (raw24 b0 b1 b2).toNat := by
  change ((b0.toNat : Int) * 256 + b1.toNat) * 256 + b2.toNat = _
  rw [raw24_toNat]
  omega

theorem toInt_append_byte {n : Nat} (hn : n ≠ 0) (x : BitVec n) (b : Byte) : (x ++ b).toInt = x.toInt * 256 + zext b := by
  rw [BitVec.toInt_append, if_neg (by simpa using hn), mul_comm]
  rfl

theorem composeBytes_sext_two (b0 b1 : Byte) : composeBytes sext [b0, b1] = (b0 ++ b1).toInt :=
  (toInt_append_byte (by decide) b0 b1).symm

theorem composeBytes_sext_three (b0 b1 b2 : Byte) : composeBytes sext [b0, b1, b2] = (b0 ++ b1 ++ b2).toInt := by
  rw [toInt_append_byte (by decide), toInt_append_byte (by decide)]
  rfl

/-! ### The bytes again -/

theorem byteOf_add_zero (v : Int) (b : Byte) : byteOf (v * 256 + zext b) 0 = b := by
  have hb := b.isLt
  apply BitVec.eq_of_toNat_eq
  rw [byteOf, pow_zero, Int.ediv_one, BitVec.toNat_ofInt, zext]
  omega

theorem byteOf_add_succ (v : Int) (b : Byte) (i : Nat) : byteOf (v * 256 + zext b) (i + 1) = byteOf v i := by
  have hb := b.isLt
  have hv : (v * 256 + zext b) / 256 = v := by
    rw [zext]
    omega
  rw [byteOf, pow_succ', ← Int.ediv_ediv_of_nonneg (by decide), hv, byteOf]

theorem byteOf_zext (b : Byte) : byteOf (zext b) 0 = b := by
  simpa using byteOf_add_zero 0 b

theorem byteOf_composeBytes_two (b0 b1 : Byte) :
    byteOf (composeBytes zext [b0, b1]) 1 = b0 ∧ byteOf (composeBytes zext [b0, b1]) 0 = b1 :=
  ⟨(byteOf_add_succ (zext b0) b1 0).trans (byteOf_zext b0), byteOf_add_zero (zext b0) b1⟩

theorem byteOf_composeBytes_three (b0 b1 b2 : Byte) :
    byteOf (composeBytes zext [b0, b1, b2]) 2 = b0 ∧ byteOf (composeBytes zext [b0, b1, b2]) 1 = b1 ∧
      byteOf (composeBytes zext [b0, b1, b2]) 0 = b2 := by
  obtain ⟨h0, h1⟩ := byteOf_composeBytes_two b0 b1
  exact ⟨(byteOf_add_succ _ b2 1).trans h0, (byteOf_add_succ _ b2 0).trans h1, byteOf_add_zero _ b2⟩

/-! ### The reads -/

theorem World.readNumber_succeeds (first : Byte → Int) {bs : List Byte} {r : Byte} {x : Int}
    (hx : composeBytes first bs = x) (hc : w.channel.isSome = true) (hs : w.script = [])
    (h : ∀ i (hi : i < bs.length), w.device.Reads d (r + BitVec.ofNat 8 i) bs[i]) :
    ∃ w', w.readNumber d first bs.length r = .returned (some x) w' ∧ w'.block = w.block := by
  obtain ⟨w', e, s⟩ := World.readBytes_succeeds bs hc hs h
  exact ⟨w', hx ▸ World.readNumber_of_readBytes e first, s.block⟩

theorem World.readUInt16_calibration (k : Fin 11) (hc : w.channel.isSome = true) (hs : w.script = [])
    (h : w.device.started d = true) :
    ∃ w', w.readUInt16 d (BitVec.ofNat 8 (0xAA + 2 * k.val)) =
      .returned (some (composeBytes zext [w.device.calibration[2 * k.val], w.device.calibration[2 * k.val + 1]])) w' ∧
      w.SameAfterReads w' := by
  refine World.readUInt16_succeeds hc hs (Device.reads_calibration h (2 * k.val) (by omega)) ?_
  have hnext := Device.reads_calibration h (2 * k.val + 1) (by omega)
  rwa [← Nat.add_assoc, BitVec.ofNat_add] at hnext

/-- Settles O48: the reads compose the bytes of consecutive registers, and the composed numbers are those of the appended
patterns. -/
theorem multiByteReadsAreBigEndian : Obligations.MultiByteReadsAreBigEndian := by
  refine ⟨fun b0 b1 => ⟨rfl, composeBytes_sext_two b0 b1, ?_, ?_⟩, fun b0 b1 b2 => ⟨?_, composeBytes_sext_three b0 b1 b2⟩,
    fun d w r b0 b1 b2 hc hs h0 => ?_, fun d w k ⟨hc, _, hs, _, hst⟩ => ?_⟩
  · rw [composeBytes_zext_two, BitVec.ofInt_natCast, BitVec.ofNat_toNat, BitVec.setWidth_eq]
    rfl
  · rw [composeBytes_sext_two, BitVec.ofInt_toInt]
  · rw [composeBytes_zext_three, raw24_toNat]
    simp
  · have h0' : w.device.Reads d (r + BitVec.ofNat 8 0) b0 := by simpa using h0
    have one : ∀ i (hi : i < [b0].length), w.device.Reads d (r + BitVec.ofNat 8 i) [b0][i] := fun
      | 0, _ => h0'
    refine ⟨⟨World.readNumber_succeeds zext rfl hc hs one, World.readNumber_succeeds sext rfl hc hs one⟩, fun h1 => ?_⟩
    have two : ∀ i (hi : i < [b0, b1].length), w.device.Reads d (r + BitVec.ofNat 8 i) [b0, b1][i] := fun
      | 0, _ => h0'
      | 1, _ => h1
    refine ⟨⟨World.readNumber_succeeds zext ?_ hc hs two,
      World.readNumber_succeeds sext (composeBytes_sext_two b0 b1) hc hs two⟩, fun h2 => ?_⟩
    · rw [composeBytes_zext_two, v16_toNat]
    have three : ∀ i (hi : i < [b0, b1, b2].length), w.device.Reads d (r + BitVec.ofNat 8 i) [b0, b1, b2][i] := fun
      | 0, _ => h0'
      | 1, _ => h1
      | 2, _ => h2
    refine ⟨World.readNumber_succeeds zext ?_ hc hs three,
      World.readNumber_succeeds sext (composeBytes_sext_three b0 b1 b2) hc hs three⟩
    rw [composeBytes_zext_three, raw24_toNat]
  · obtain ⟨w', e, s⟩ := World.readUInt16_calibration k hc hs hst
    exact ⟨w', e, s.block⟩

end Sys2Proof.Machine
end

section
/-! PROOFS. READT and READP (44_host_protocol.md R228, R229, R233, R234): a conversion that succeeds returns its result bytes,
and what the accessor returns is read from the block after CMPT or CMPP. -/

namespace Sys2Proof.Machine

variable {d : Config.Delays} {w w' w1 w2 : World}

/-! ### A conversion on a ready world -/

theorem World.Ready.driverOpen (h : w.Ready d) : w.driverOpen = true := h.2.1

theorem World.triggered_conversion {m : Measurement} {bs : List Byte} {rest : List (List Byte)} (hi : w.device.idle d = true)
    (hs : w.device.started d = true) (h : w.device.adc = bs :: rest) :
    (w.triggered d m).device.conversion = some ⟨m, bs, m.settle d⟩ := by
  simp [World.triggered, World.wait, World.log, Device.elapse, Device.start, Delay.amount, hi, hs, h]

theorem World.started_triggered (m : Measurement) (h : w.device.started d = true) :
    (w.triggered d m).device.started d = true :=
  Device.started_elapse (dev := w.device.start d m) h _

theorem Device.idle_elapse_of_settled {dev : Device} {c : Conversion} (h : dev.conversion = some c)
    (hc : c.what.settle d ≤ c.waited) (n : Nat) : (dev.elapse n).idle d = true := by
  simp only [Device.idle, Device.elapse, h, Option.map_some, decide_eq_true_eq]
  omega

/-- A conversion returns the bytes the device has for it, and leaves the world ready for the next. -/
theorem World.convert_succeeds {m : Measurement} {bs : List Byte} {rest : List (List Byte)} (hr : w.Ready d)
    (hadc : w.device.adc = bs :: rest) (hbs : bs.length = m.width) :
    ∃ w', w.convert d m = .returned (some (composeBytes zext bs)) w' ∧ w'.Ready d ∧ w'.block = w.block ∧
      w'.device.adc = rest := by
  obtain ⟨hc, ho, hs, hi, hst⟩ := hr
  have hconv := World.triggered_conversion (m := m) hi hst hadc
  have hstart := World.started_triggered m hst
  have hwidth := m.width_le
  obtain ⟨w', e, s⟩ := World.readBytes_succeeds (d := d) (w := w.triggered d m) (r := 0xF6) bs hc (congrArg List.tail hs)
    fun i hib => by
      have hreads := Device.reads_result hstart hconv le_rfl (i := i) (by omega) hib (by omega)
      rwa [BitVec.ofNat_add] at hreads
  obtain ⟨n, hdev⟩ := s.device
  refine ⟨w', World.convert_of_readBytes hc (by rw [hs]; rfl) (hbs ▸ e), ⟨?_, s.driverOpen.trans ho, s.script, ?_, ?_⟩,
    s.block, ?_⟩
  · rw [s.channel]
    exact hc
  · rw [hdev]
    exact Device.idle_elapse_of_settled hconv le_rfl n
  · rw [hdev]
    exact Device.started_elapse hstart n
  · rw [hdev]
    exact congrArg List.tail hadc

/-! ### The computations of the accessors -/

/-- The CMPT and the STATUS read of READT (R233). -/
def World.computeTemperature (w : World) : World := (w.issue (encode .cmpt)).notePortRead 0x00

/-- The LDUP of READP (R234). -/
def World.loadPressure (y : Int) (w : World) : World :=
  w.issue (encode (.ldup (byteOf y 2) (byteOf y 1) (byteOf y 0)))

/-- The CMPP and the STATUS read of READP (R234). -/
def World.computePressure (w : World) : World := (w.issue (encode .cmpp)).notePortRead 0x00

theorem World.loadPressure_block (y : Int) (w : World) :
    (w.loadPressure y).block =
      w.block.latchUp (alignUp (raw24 (byteOf y 2) (byteOf y 1) (byteOf y 0)) w.block.oss) :=
  issue_ldup (decodeOfEncode _ rfl) w.block

theorem World.computeTemperature_block {t10 : Int} (h : w.block.cmptOutcome = .ok t10) :
    w.computeTemperature.block = (w.block.putTemp t10).consumeUt := by
  change Sys2Proof.Machine.issue (encode .cmpt) w.block = _
  rw [Sys2Proof.Machine.issue, perform_ok (decodeOfEncode .cmpt rfl), exec_cmpt_ok h, stateAfter_next]

theorem World.computePressure_block {p : Int} (h : w.block.cmppOutcome = .ok p) :
    w.computePressure.block = (w.block.putPres p).consumeUt.dropUp := by
  change Sys2Proof.Machine.issue (encode .cmpp) w.block = _
  rw [Sys2Proof.Machine.issue, perform_ok (decodeOfEncode .cmpp rfl), exec_cmpp_ok h, stateAfter_next]

theorem readPort_status_tValid (s : State) : (s.readPort 0x00).getLsbD 3 = s.tValid := statusWord_getLsbD s 3

theorem readPort_status_pValid (s : State) : (s.readPort 0x00).getLsbD 4 = s.pValid := statusWord_getLsbD s 4

theorem readPres_eq (s : State) : s.readPres = s.pres := (pressureFromTwoHalves s).1

/-- READT after its conversion: TEMP where T_VALID is 1 after the CMPT. -/
def World.reportTemperature (w : World) : HostRun Reading :=
  if w.computeTemperature.block.tValid then
    .returned (tempToC (sext w.computeTemperature.block.temp)) (w.computeTemperature.notePortRead 0x07)
  else .returned .nan w.computeTemperature

/-- READP after its conversions: PRES where P_VALID is 1 after the CMPP. -/
def World.reportPressure (w : World) : HostRun Reading :=
  if w.computePressure.block.pValid then
    .returned (presToPa w.computePressure.block.pres) ((w.computePressure.notePortRead 0x09).notePortRead 0x08)
  else .returned .nan w.computePressure

theorem World.readTemperature_of_convert_some (ho : w.driverOpen = true) {x : Int}
    (h : w.convert d .temperature = .returned (some x) w1) :
    w.readTemperature d = (w1.loadTemperature x).reportTemperature := by
  rw [World.readTemperature, if_neg (by simp [ho]), h, HostRun.andThen_returned]
  simp only [readPort_status_tValid]
  rfl

theorem World.readPressure_of_converts_some (ho : w.driverOpen = true) {x y : Int}
    (h : w.convert d .temperature = .returned (some x) w1)
    (h2 : (w1.loadTemperature x).convert d (.pressure 0) = .returned (some y) w2) :
    w.readPressure d = (w2.loadPressure y).reportPressure := by
  rw [World.loadTemperature] at h2
  rw [World.readPressure, if_neg (by simp [ho]), h, HostRun.andThen_returned]
  simp only [h2, HostRun.andThen_returned, readPort_status_pValid, readPres_eq]
  rfl

/-! ### On a ready world the accessors return the result -/

theorem World.reportTemperature_of_ok {t10 : Int} (h : w.block.cmptOutcome = .ok t10) :
    ∃ w', w.reportTemperature = .returned (tempToC t10) w' ∧ w'.block = (w.block.putTemp t10).consumeUt := by
  have hb := World.computeTemperature_block h
  refine ⟨w.computeTemperature.notePortRead 0x07, ?_, hb⟩
  simp [World.reportTemperature, hb, sext, toInt_ofInt_of_cmptOutcome h]

theorem World.reportPressure_of_ok {p : Int} (h : w.block.cmppOutcome = .ok p) :
    ∃ w', w.reportPressure = .returned (presToPa (BitVec.ofInt 64 p)) w' ∧
      w'.block = (w.block.putPres p).consumeUt.dropUp := by
  have hb := World.computePressure_block h
  refine ⟨(w.computePressure.notePortRead 0x09).notePortRead 0x08, ?_, hb⟩
  simp [World.reportPressure, hb]

/-- Settles O54: the bytes of the LDUT are the conversion's, and the CMPT then passes its checks. -/
theorem readTemperatureReturnsTheResult : Obligations.ReadTemperatureReturnsTheResult := by
  intro d w b0 b1 rest t10 hr hadc hcal htemp
  obtain ⟨w1, e, -, hblock, -⟩ := World.convert_succeeds (m := .temperature) hr hadc rfl
  have hload := w1.loadTemperature_block (composeBytes zext [b0, b1])
  rw [(byteOf_composeBytes_two b0 b1).1, (byteOf_composeBytes_two b0 b1).2, hblock] at hload
  have hok : (w1.loadTemperature (composeBytes zext [b0, b1])).block.cmptOutcome = .ok t10 := by
    rw [hload]
    exact (cmptOutcome_of_valid (s := w.block.latchUt (v16 b0 b1)) hcal rfl).trans htemp
  obtain ⟨w', e', hw'⟩ := World.reportTemperature_of_ok hok
  rw [hload] at hw'
  exact ⟨w', (World.readTemperature_of_convert_some hr.driverOpen e).trans e', hw'⟩

/-- At OSS 0 the pressure reading is the number of its first two bytes (R122). -/
theorem zext_alignUp_oss_zero (b0 b1 b2 : Byte) : zext (alignUp (raw24 b0 b1 b2) 0) = zext (b0 ++ b1) := by
  have h2 := b2.isLt
  have hv := v16_toNat b0 b1
  rw [v16] at hv
  rw [zext, zext, hv, alignUp_toNat, raw24_toNat]
  simp only [BitVec.ofNat_eq_ofNat, BitVec.toNat_ofNat, Nat.zero_mod, Nat.sub_zero]
  omega

/-- Settles O55: the first conversion's bytes are the LDUT's, the second's the LDUP's, and the CMPP then passes its checks. -/
theorem readPressureReturnsTheResult : Obligations.ReadPressureReturnsTheResult := by
  intro d w a0 a1 b0 b1 b2 rest p hr hadc hcal hoss hpres
  obtain ⟨w1, e1, hr1, hblock1, hadc1⟩ := World.convert_succeeds (m := .temperature) hr hadc rfl
  have hload1 := w1.loadTemperature_block (composeBytes zext [a0, a1])
  rw [(byteOf_composeBytes_two a0 a1).1, (byteOf_composeBytes_two a0 a1).2, hblock1] at hload1
  obtain ⟨w2, e2, -, hblock2, -⟩ := World.convert_succeeds (m := .pressure 0)
    (w := w1.loadTemperature (composeBytes zext [a0, a1])) hr1 hadc1 rfl
  have hload2 := w2.loadPressure_block (composeBytes zext [b0, b1, b2])
  obtain ⟨hb0, hb1, hb2⟩ := byteOf_composeBytes_three b0 b1 b2
  rw [hb0, hb1, hb2, hblock2, hload1, State.latchUt_oss, hoss] at hload2
  have hok : (w2.loadPressure (composeBytes zext [b0, b1, b2])).block.cmppOutcome = .ok p := by
    rw [← zext_alignUp_oss_zero b0 b1 b2, ← hoss] at hpres
    rw [hload2, ← hoss]
    exact (cmppOutcome_of_valid (s := (w.block.latchUt (v16 a0 a1)).latchUp _) hcal rfl rfl).trans hpres
  obtain ⟨w', e', hw'⟩ := World.reportPressure_of_ok hok
  rw [hload2] at hw'
  refine ⟨w', (World.readPressure_of_converts_some hr.driverOpen e1 e2).trans e', ?_⟩
  rw [hw']
  exact ⟨rfl, rfl, rfl, rfl, rfl, rfl⟩

/-! ### Whatever happens on the bus -/

theorem World.reportTemperature_number {x : Long} (h : w.reportTemperature = .returned (.number x) w') :
    w'.block.tValid = true ∧ tempToC w'.block.temp.toInt = .number x := by
  unfold World.reportTemperature at h
  split at h
  · next hv =>
    obtain ⟨hx, rfl⟩ := HostRun.returned.inj h
    exact ⟨hv, hx⟩
  · cases h

theorem World.reportPressure_number {x : Long} (h : w.reportPressure = .returned (.number x) w') :
    w'.block.pValid = true ∧ presToPa w'.block.pres = .number x := by
  unfold World.reportPressure at h
  split at h
  · next hv =>
    obtain ⟨hx, rfl⟩ := HostRun.returned.inj h
    exact ⟨hv, hx⟩
  · cases h

/-- READT returns a number only after a conversion that returned one. -/
theorem World.readTemperature_number {x : Long} (h : w.readTemperature d = .returned (.number x) w') :
    ∃ (v : Int) (w1 : World), (w1.loadTemperature v).reportTemperature = .returned (.number x) w' := by
  cases ho : w.driverOpen with
  | false => simp [World.readTemperature_of_closed ho] at h
  | true =>
    have h' := h
    rw [World.readTemperature, if_neg (by simp [ho]), HostRun.andThen_eq_returned] at h'
    obtain ⟨v, w1, e, -⟩ := h'
    cases v with
    | none => simp [World.readTemperature_of_convert_none ho e] at h
    | some v => exact ⟨v, w1, World.readTemperature_of_convert_some ho e ▸ h⟩

/-- READP returns a number only after two conversions that returned one. -/
theorem World.readPressure_number {x : Long} (h : w.readPressure d = .returned (.number x) w') :
    ∃ (v : Int) (w1 : World), (w1.loadPressure v).reportPressure = .returned (.number x) w' := by
  cases ho : w.driverOpen with
  | false => simp [World.readPressure_of_closed ho] at h
  | true =>
    have h' := h
    rw [World.readPressure, if_neg (by simp [ho]), HostRun.andThen_eq_returned] at h'
    obtain ⟨v, w1, e, h'⟩ := h'
    cases v with
    | none => simp [World.readPressure_of_convert_none ho e] at h
    | some v =>
      rw [HostRun.andThen_eq_returned] at h'
      obtain ⟨u, w2, e2, -⟩ := h'
      cases u with
      | none => simp [World.readPressure_of_second_convert_none ho e e2] at h
      | some u => exact ⟨u, w2, World.readPressure_of_converts_some ho e e2 ▸ h⟩

/-- Settles O56: the number is read from the block, and no move of the host follows the reads. -/
theorem numbersComeFromValidResults : Obligations.NumbersComeFromValidResults := by
  refine fun d w w' x => ⟨fun h => ?_, fun h => ?_⟩
  · obtain ⟨v, w1, h1⟩ := World.readTemperature_number h
    exact World.reportTemperature_number h1
  · obtain ⟨v, w1, h1⟩ := World.readPressure_number h
    exact World.reportPressure_number h1

end Sys2Proof.Machine
end

section
/-! PROOFS. OPEN, LOADCAL and RESET (44_host_protocol.md R231, R232): on a bus that does not fail the block ends with the
sensor's image, and on any bus LOADCAL returns CAL_VALID. -/

namespace Sys2Proof.Machine

variable {d : Config.Delays} {w w' : World} {image : Vector Byte 22}

/-! ### The words that load an image -/

/-- The CALW of coefficient `k`'s byte pair (30_encoding.md R88). -/
def imageWord (image : Vector Byte 22) (k : Fin 11) : Word :=
  encode (.calw (BitVec.ofNat 4 k.val) image[2 * k.val] image[2 * k.val + 1])

/-- The eleven words in order. -/
def imageWords (image : Vector Byte 22) : List Word := (List.finRange 11).map (imageWord image)

theorem decode_encode_calw (k : Fin 11) (msb lsb : Byte) :
    decode (encode (.calw (BitVec.ofNat 4 k.val) msb lsb)) = .ok (.calw (BitVec.ofNat 4 k.val) msb lsb) := by
  have hk : (BitVec.ofNat 4 k.val).toNat = k.val := Nat.mod_eq_of_lt (by omega)
  exact decodeOfEncode _ (wellFormed_calw_iff.mpr (by omega))

theorem issue_encode_calw (k : Fin 11) (msb lsb : Byte) (s : State) :
    issue (encode (.calw (BitVec.ofNat 4 k.val) msb lsb)) s = (s.setCal k.val (v16 msb lsb)).setLoaded k.val := by
  have hk : (BitVec.ofNat 4 k.val).toNat = k.val := Nat.mod_eq_of_lt (by omega)
  rw [issue_calw (decode_encode_calw k msb lsb), hk]

theorem issueAll_imageWords_calValid (image : Vector Byte 22) (s : State) :
    (issueAll (imageWords image) s).calValid = true := by
  refine calibrationCompleteness.1 [] (imageWords image) s ?_ fun k =>
    ⟨imageWord image k, List.mem_map_of_mem (List.mem_finRange k), _, _, decode_encode_calw k _ _⟩
  intro word hword
  obtain ⟨k, -, rfl⟩ := List.mem_map.mp hword
  simp [ClearsLoaded, imageWord, decode_encode_calw]

/-- The word of coefficient `k` loads it, and each later one writes the same pair or another coefficient. -/
theorem issueAll_imageWords_cal (image : Vector Byte 22) (s : State) (k : Fin 11) :
    (issueAll (imageWords image) s).cal[k] = image[2 * k.val] ++ image[2 * k.val + 1] := by
  obtain ⟨us, vs, hsplit⟩ := List.append_of_mem (List.mem_finRange k)
  rw [imageWords, hsplit, List.map_append, issueAll_append, List.map_cons, issueAll_cons]
  refine issueAll_induct (·.cal[k] = v16 image[2 * k.val] image[2 * k.val + 1]) _ ?_
    (issue_calw_cal (decode_encode_calw k _ _) _)
  intro word hword t ht
  obtain ⟨j, -, rfl⟩ := List.mem_map.mp hword
  rw [imageWord, issue_encode_calw, State.setLoaded_cal, setCal_getElem]
  split
  · next h => rw [Fin.ext h]
  · exact ht

/-- CALW writes CAL and LOADED alone. -/
theorem issueAll_imageWords_frame (image : Vector Byte 22) (s : State) :
    { issueAll (imageWords image) s with cal := State.reset.cal, loaded := 0, inputs := [] } =
      { s with cal := State.reset.cal, loaded := 0, inputs := [] } := by
  refine issueAll_induct (fun t => { t with cal := State.reset.cal, loaded := 0, inputs := [] } =
    { s with cal := State.reset.cal, loaded := 0, inputs := [] }) _ ?_ rfl
  intro word hword t ht
  obtain ⟨k, -, rfl⟩ := List.mem_map.mp hword
  rw [imageWord, issue_encode_calw]
  exact ht

theorem issue_encode_srst (s : State) : issue (encode .srst) s = s.resetBlock := issue_srst (decodeOfEncode .srst rfl) s

theorem issue_encode_calclr (s : State) : issue (encode .calclr) s = s.clearLoaded := by
  rw [issue, perform_ok (decodeOfEncode .calclr rfl)]
  rfl

/-! ### OPEN where every bus step succeeds -/

/-- For any list of coefficients: each read succeeds, and its CALW is issued. -/
theorem World.loadCalFrom_succeeds (ks : List (Fin 11)) : ∀ {w : World}, w.channel.isSome = true → w.script = [] →
    w.device.started d = true → w.device.calibration = image →
    ∃ w', World.loadCalFrom d (ks.map Fin.val) true w = .returned true w' ∧ w'.channel = w.channel ∧
      w'.block = issueAll (ks.map (imageWord image)) w.block ∧
      issuedWords w'.trace = issuedWords w.trace ++ ks.map (imageWord image) := by
  induction ks with
  | nil => exact fun {w} _ _ _ _ => ⟨w, rfl, rfl, rfl, by simp⟩
  | cons k ks ih =>
    rintro w hc hs hst rfl
    obtain ⟨w1, e1, s1⟩ := World.readUInt16_calibration k hc hs hst
    obtain ⟨n, hdev⟩ := s1.device
    have hst1 : w1.device.started d = true := hdev ▸ Device.started_elapse hst n
    have hcal1 : w1.device.calibration = w.device.calibration := by
      rw [hdev]
      rfl
    obtain ⟨w2, e2, hc2, hb2, ht2⟩ :=
      ih (w := w1.issue (imageWord w.device.calibration k)) (s1.channel ▸ hc) s1.script hst1 hcal1
    refine ⟨w2, ?_, hc2.trans s1.channel, ?_, ?_⟩
    · rw [List.map_cons, World.loadCalFrom, e1, HostRun.andThen_returned]
      simp only [(byteOf_composeBytes_two _ _).1, (byteOf_composeBytes_two _ _).2]
      exact e2
    · rw [hb2, List.map_cons, issueAll_cons, ← s1.block]
      rfl
    · rw [ht2, World.issuedWords_issue, s1.words, List.map_cons, List.append_assoc, List.singleton_append]

theorem World.loadCal_succeeds (hc : w.channel.isSome = true) (hs : w.script = []) (hst : w.device.started d = true) :
    ∃ w', w.loadCal d = .returned true w' ∧ w'.channel = w.channel ∧
      w'.block = issueAll (imageWords w.device.calibration) w.block.clearLoaded ∧
      issuedWords w'.trace = issuedWords w.trace ++ [encode .calclr] ++ imageWords w.device.calibration := by
  obtain ⟨w', e, hc', hb, ht⟩ :=
    World.loadCalFrom_succeeds (List.finRange 11) (w := w.issue (encode .calclr)) hc hs hst rfl
  refine ⟨w', ?_, hc', ?_, ?_⟩
  · rw [World.loadCal, ← List.map_coe_finRange_eq_range]
    exact e
  · rw [hb, ← issue_encode_calclr]
    rfl
  · rw [ht, World.issuedWords_issue]
    rfl

theorem World.openBus_succeeds (hs : w.script = []) (path : List Char) (address : BitVec 7) :
    ∃ w', w.openBus path address = .returned true w' ∧ w'.channel = some ⟨path, address⟩ ∧ w'.script = [] ∧
      w'.device = w.device ∧ issuedWords w'.trace = issuedWords w.trace := by
  obtain ⟨hframe, hwords⟩ := w.closeBus_frame
  have hs' : w.closeBus.script = [] := (congrArg World.script hframe :).trans hs
  refine ⟨{ (w.closeBus.log (.openResource path)).log (.bindAddress address) with
    channel := some ⟨path, address⟩, script := [] }, ?_, rfl, rfl, (congrArg World.device hframe :), ?_⟩
  · simp [World.openBus, World.busStep, hs', World.log]
  · simp [World.log, issuedWords, hwords]

/-- Settles O52: after SRST and CALCLR the eleven CALW load the image. -/
theorem openLoadsTheImage : Obligations.OpenLoadsTheImage := by
  intro d w path address hs hst
  obtain ⟨w1, e1, hc1, hs1, hdev1, ht1⟩ := World.openBus_succeeds hs path address
  obtain ⟨w2, e2, hc2, hb2, ht2⟩ := World.loadCal_succeeds (d := d) (w := w1.issue (encode .srst))
    (congrArg Option.isSome hc1) hs1 (hdev1 ▸ hst)
  have himage : (w1.issue (encode .srst)).device.calibration = w.device.calibration := congrArg Device.calibration hdev1
  have hreset : (w1.issue (encode .srst)).block = w1.block.resetBlock := issue_encode_srst w1.block
  rw [himage, hreset] at hb2
  refine ⟨{ w2 with driverOpen := true }, ?_, hc2.trans hc1, ?_, ?_, fun k => ?_, ?_⟩
  · rw [World.openDriver, e1, HostRun.andThen_returned, if_pos rfl, e2, HostRun.andThen_returned]
  · simp [World.driverState, hb2, issueAll_imageWords_calValid]
  · rw [ht2, himage, World.issuedWords_issue, ht1, List.ofFn_eq_map, List.append_assoc (issuedWords w.trace)]
    rfl
  · simp only [hb2]
    exact issueAll_imageWords_cal _ _ k
  · simp only [hb2]
    exact issueAll_imageWords_frame _ _

/-! ### LOADCAL on any bus -/

/-- Before coefficient `k` is read: no bit of LOADED from `k` on is 1, and all below are where no read has failed. -/
def State.LoadedBelow (s : State) (k : Nat) (ok : Bool) : Prop :=
  s.loaded.toNat < 2 ^ k ∧ (ok = true ↔ s.loaded.toNat + 1 = 2 ^ k)

theorem State.LoadedBelow.setLoaded {s : State} {k : Nat} {ok : Bool} (h : s.LoadedBelow k ok) (hk : k < 11) (v : Half) :
    ((s.setCal k v).setLoaded k).LoadedBelow (k + 1) ok := by
  obtain ⟨hlt, hok⟩ := h
  have hsum : ((s.setCal k v).setLoaded k).loaded.toNat = s.loaded.toNat + 2 ^ k := by
    have hor := Nat.two_pow_add_eq_or_of_lt hlt 1
    rw [mul_one] at hor
    rw [State.setLoaded_loaded, State.setCal_loaded, BitVec.toNat_or, BitVec.toNat_twoPow_of_lt hk, Nat.lor_comm, ← hor,
      Nat.add_comm]
  rw [State.LoadedBelow, hsum, pow_succ]
  exact ⟨by omega, hok.trans (by omega)⟩

theorem State.LoadedBelow.skip {s : State} {k : Nat} {ok : Bool} (h : s.LoadedBelow k ok) :
    s.LoadedBelow (k + 1) false := by
  obtain ⟨hlt, -⟩ := h
  rw [State.LoadedBelow, pow_succ]
  have : 0 < 2 ^ k := by positivity
  simp
  omega

theorem State.LoadedBelow.calValid {s : State} {ok : Bool} (h : s.LoadedBelow 11 ok) : s.calValid = ok := by
  rw [Bool.eq_iff_iff, calValid_iff, h.2, ← BitVec.toNat_inj]
  change s.loaded.toNat = 2047 ↔ s.loaded.toNat + 1 = 2048
  omega

theorem World.loadCalFrom_returns (m : Nat) : ∀ {k : Nat} {ok b : Bool} {w : World}, k + m = 11 → w.block.LoadedBelow k ok →
    World.loadCalFrom d (List.range' k m) ok w = .returned b w' → w'.block.calValid = b := by
  induction m with
  | zero =>
    rintro k ok b w rfl hw ⟨⟩
    exact hw.calValid
  | succ m ih =>
    intro k ok b w hk hw h
    rw [List.range'_succ, World.loadCalFrom, HostRun.andThen_eq_returned] at h
    obtain ⟨v, w1, e, h⟩ := h
    rw [← World.readUInt16_block e] at hw
    cases v with
    | none => exact ih (by omega) hw.skip h
    | some x =>
      refine ih (by omega) ?_ h
      have hb : (w1.issue (encode (.calw (BitVec.ofNat 4 k) (byteOf x 1) (byteOf x 0)))).block = _ :=
        issue_encode_calw ⟨k, by omega⟩ (byteOf x 1) (byteOf x 0) w1.block
      rw [hb]
      exact hw.setLoaded (by omega) _

theorem World.loadCal_returns {b : Bool} (h : w.loadCal d = .returned b w') : w'.block.calValid = b := by
  rw [World.loadCal, List.range_eq_range'] at h
  refine World.loadCalFrom_returns 11 rfl ?_ h
  have hb : (w.issue (encode .calclr)).block = w.block.clearLoaded := issue_encode_calclr w.block
  simp [State.LoadedBelow, hb]

/-- Settles O53: LOADCAL begins with no coefficient loaded, and its flag says whether every read has succeeded. -/
theorem calibrationLoadIsReportedExactly : Obligations.CalibrationLoadIsReportedExactly := by
  refine ⟨fun d w w' b h => World.loadCal_returns h, fun d w w' h => ?_⟩
  unfold World.resetDevice at h
  split at h
  · cases h
  · obtain ⟨ok, w1, -, h⟩ := HostRun.andThen_eq_returned.mp h
    obtain ⟨calok, w2, e, h⟩ := HostRun.andThen_eq_returned.mp h
    obtain ⟨hok, rfl⟩ := HostRun.returned.inj h
    rw [World.loadCal_returns e]
    exact (Bool.and_eq_true_iff.mp hok).2

end Sys2Proof.Machine
end

section
/-! PROOFS. The host's two conversions to binary64 (44_host_protocol.md R235, R236). -/

namespace Sys2Proof.Machine

/-! ### An integer below 2^53 keeps its value -/

/-- A normal pattern is read as the number it was packed from. -/
theorem ofBinary64_pack (neg : Bool) {e m : Nat} (he : 0 < e ∧ e < 2048) (hm : 2 ^ 52 ≤ m ∧ m < 2 ^ 53) :
    ofBinary64 (BitVec.ofBool neg ++ BitVec.ofNat 11 e ++ BitVec.ofNat 52 m) = ⟨neg, m, (e : Int) - 1075⟩ := by
  have hexpo : (BitVec.ofBool neg ++ BitVec.ofNat 11 e ++ BitVec.ofNat 52 m).extractLsb' 52 11 = BitVec.ofNat 11 e := by
    rw [BitVec.extractLsb'_append_eq_of_le le_rfl]
    exact BitVec.extractLsb'_append_eq_right
  have hfrac : (BitVec.ofBool neg ++ BitVec.ofNat 11 e ++ BitVec.ofNat 52 m).extractLsb' 0 52 = BitVec.ofNat 52 m :=
    BitVec.extractLsb'_append_eq_right
  have hneg : (BitVec.ofBool neg ++ BitVec.ofNat 11 e ++ BitVec.ofNat 52 m).msb = neg := by
    rw [BitVec.msb_append, if_neg (by decide), BitVec.msb_append, if_neg (by decide), BitVec.msb_ofBool]
  simp only [ofBinary64, hexpo, hfrac, hneg, BitVec.toNat_ofNat, Nat.mod_eq_of_lt he.2]
  rw [if_neg he.1.ne']
  congr 1
  omega

/-- The significand of 53 bits is the number shifted up, and so are the double's fields. -/
theorem ofBinary64_toBinary64 (neg : Bool) {m : Nat} (h0 : m ≠ 0) (hm : m < 2 ^ 53) :
    ofBinary64 (Scaled.toBinary64 ⟨neg, m, 0⟩) = ⟨neg, m * 2 ^ (52 - m.log2), -((52 - m.log2 : Nat) : Int)⟩ := by
  have hlog : m.log2 < 53 := (Nat.log2_lt h0).mpr hm
  have hround : Scaled.round53 ⟨neg, m, 0⟩ = ⟨neg, m * 2 ^ (52 - m.log2), -((52 - m.log2 : Nat) : Int)⟩ := by
    simp only [Scaled.round53]
    rw [if_pos (by omega), Nat.add_sub_add_right 52 1, Int.zero_sub]
  have hlow : 2 ^ 52 ≤ m * 2 ^ (52 - m.log2) := by
    calc 2 ^ 52 = 2 ^ m.log2 * 2 ^ (52 - m.log2) := by rw [← pow_add]; congr 1; omega
      _ ≤ m * 2 ^ (52 - m.log2) := Nat.mul_le_mul_right _ (Nat.log2_self_le h0)
  have hhigh : m * 2 ^ (52 - m.log2) < 2 ^ 53 := by
    calc m * 2 ^ (52 - m.log2) < 2 ^ (m.log2 + 1) * 2 ^ (52 - m.log2) :=
          Nat.mul_lt_mul_of_pos_right Nat.lt_log2_self (by positivity)
      _ = 2 ^ 53 := by rw [← pow_add]; congr 1; omega
  simp only [Scaled.toBinary64, hround]
  rw [if_neg h0, ofBinary64_pack neg (by omega) ⟨hlow, hhigh⟩]
  congr 1
  omega

theorem ofBinary64_doubleOfInt_zero : ofBinary64 (doubleOfInt 0) = ⟨false, 0, -1074⟩ := by decide

theorem doubleOfInt_value {z : Int} (hz : z.natAbs < 2 ^ 53) : (ofBinary64 (doubleOfInt z)).value = z := by
  by_cases h0 : z = 0
  · rw [h0, ofBinary64_doubleOfInt_zero, Scaled.value]
    simp
  · have hshift : (2 : Rat) ^ (52 - z.natAbs.log2) ≠ 0 := by positivity
    rw [doubleOfInt, ofBinary64_toBinary64 _ (Int.natAbs_ne_zero.mpr h0) hz, Scaled.value]
    simp only [Nat.cast_mul, Nat.cast_pow, Nat.cast_ofNat, zpow_neg, zpow_natCast]
    rw [← mul_assoc, mul_inv_cancel_right₀ hshift]
    obtain hneg | hpos := lt_or_ge z 0
    · rw [if_pos (decide_eq_true hneg), Nat.cast_natAbs, abs_of_neg hneg]
      simp
    · rw [if_neg (by simpa using hpos), Nat.cast_natAbs, abs_of_nonneg hpos]
      simp

theorem presToPa_exact {u : Long} (h : -(2 ^ 53) < u.toInt ∧ u.toInt < 2 ^ 53) :
    ∃ b, presToPa u = .number b ∧ (ofBinary64 b).value = (u.toInt : Rat) :=
  ⟨_, rfl, doubleOfInt_value (by rw [sext]; omega)⟩

/-- Settles O58: PRES is far below 2^53 in the invariant. -/
theorem pressureConvertsExactly : Obligations.PressureConvertsExactly := by
  refine ⟨fun u hlow hhigh => presToPa_exact ⟨hlow, hhigh⟩, fun s hs => ?_⟩
  have hbound := hs.pres_bound
  rw [readPres_eq]
  exact presToPa_exact (by omega)

/-! ### The rows of V-H -/

/-- Settles O59: each row is one product rounded to 53 bits, and is computed. -/
theorem temperatureScaleVectors : Obligations.TemperatureScaleVectors := by
  unfold Obligations.TemperatureScaleVectors
  decide

end Sys2Proof.Machine
end

section
/-! PROOFS. The read port shows every field of 10_state.md R20 (60_exceptions.md R274). -/

namespace Sys2Proof.Machine

variable {s t : State}

/-- A register no wider than the port is zero-extended, so its word determines it. -/
theorem eq_of_setWidth_32_eq {n : Nat} (hn : n ≤ 32) {x y : BitVec n} (h : x.setWidth 32 = y.setWidth 32) : x = y := by
  have hnat := congrArg BitVec.toNat h
  rw [BitVec.toNat_setWidth_of_le hn, BitVec.toNat_setWidth_of_le hn] at hnat
  exact BitVec.eq_of_toNat_eq hnat

/-- The bit the port masks is 0 under the invariant (log 6). -/
theorem State.Inv.faultMaskRead_eq (h : s.Inv) : s.faultMaskRead = s.faultMask :=
  BitVec.eq_of_toNat_eq ((faultMaskRead_toNat s).trans h.faultMask_even)

theorem statusBits_getD_eq (h : s.readPort 0x00 = t.readPort 0x00) (n : Nat) :
    s.statusBits.getD n false = t.statusBits.getD n false := by
  rw [← statusWord_getLsbD, ← statusWord_getLsbD]
  exact congrArg (·.getLsbD n) h

theorem pres_eq_of_readPort_eq (hlo : s.readPort 0x08 = t.readPort 0x08) (hhi : s.readPort 0x09 = t.readPort 0x09) :
    s.pres = t.pres := by
  rw [← readPres_eq s, ← readPres_eq t, State.readPres, hlo, hhi, State.readPres]

theorem cal_eq_of_readPort_eq (h : ∀ a, s.readPort a = t.readPort a) : s.cal = t.cal := by
  refine Vector.ext fun i hi => eq_of_setWidth_32_eq (by decide) ?_
  have hread := h (BitVec.ofNat 8 (0x10 + i))
  rwa [readPort_cal s ⟨i, hi⟩, readPort_cal t ⟨i, hi⟩] at hread

/-- Settles O5: each field reads at its own address, the four valid bits in STATUS, and PRES in its two halves. -/
theorem readPortShowsAllState : Obligations.ReadPortShowsAllState := by
  intro s t hs ht h
  have hcal := cal_eq_of_readPort_eq h
  have hloaded : s.loaded = t.loaded := eq_of_setWidth_32_eq (by decide) (h 0x01)
  have hoss : s.oss = t.oss := eq_of_setWidth_32_eq (by decide) (h 0x04)
  have hut : s.ut = t.ut := eq_of_setWidth_32_eq (by decide) (h 0x05)
  have hup : s.up = t.up := h 0x06
  have htemp : s.temp = t.temp := h 0x07
  have hpres := pres_eq_of_readPort_eq (h 0x08) (h 0x09)
  have hbits := statusBits_getD_eq (h 0x00)
  have hutValid : s.utValid = t.utValid := hbits 1
  have hupValid : s.upValid = t.upValid := hbits 2
  have htValid : s.tValid = t.tValid := hbits 3
  have hpValid : s.pValid = t.pValid := hbits 4
  have hfirst : s.faultFirst = t.faultFirst := eq_of_setWidth_32_eq (by decide) (h 0x02)
  have hmask : s.faultMask = t.faultMask := by
    rw [← hs.faultMaskRead_eq, ← ht.faultMaskRead_eq]
    exact eq_of_setWidth_32_eq (by decide) (h 0x03)
  rw [hcal, hloaded, hoss, hut, hutValid, hup, hupValid, htemp, htValid, hpres, hpValid, hfirst, hmask]

end Sys2Proof.Machine
end

section
/-! PROOFS. What a faulting word leaves (60_exceptions.md R261, R263, R264), and the faults of a run (R265). -/

namespace Sys2Proof.Machine

variable {s : State} {w : Word} {c : FaultCode}

/-! ### No step stops -/

/-- Settles O13: a step waits, performs a word, which answers a next state whatever it decodes to, or resets. -/
theorem stepNeverStops : Obligations.StepNeverStops := by
  intro s
  obtain ⟨-, hstep⟩ | ⟨w, rest, -, hstep⟩ | ⟨rest, -, hstep⟩ := step_cases s
  · exact ⟨s, hstep⟩
  · obtain ⟨t, hperform, -⟩ := perform_effect w { s with inputs := rest }
    exact ⟨t, hstep.trans hperform⟩
  · exact ⟨_, hstep⟩

/-! ### A word that raises a fault -/

/-- Only an illegal word, a CMPT and a CMPP raise a fault (R260). -/
theorem faultOf_eq_some (h : faultOf w s = some c) :
    (∃ e, decode w = .error e ∧ c = .illegalCommand) ∨
    (decode w = .ok .cmpt ∧ s.cmptOutcome = .error c) ∨
    (decode w = .ok .cmpp ∧ s.cmppOutcome = .error c) := by
  unfold faultOf at h
  split at h
  next e hw => exact .inl ⟨e, hw, (Option.some.inj h).symm⟩
  next hw =>
    split at h
    next c' hc => exact .inr (.inl ⟨hw, hc.trans (congrArg Except.error (Option.some.inj h))⟩)
    next => cases h
  next hw =>
    split at h
    next c' hc => exact .inr (.inr ⟨hw, hc.trans (congrArg Except.error (Option.some.inj h))⟩)
    next => cases h
  next => cases h

/-- Settles O25: an illegal word records its code, and a faulting CMPT or CMPP drops its result's valid bit first. -/
theorem faultingCommandChangesOnly : Obligations.FaultingCommandChangesOnly := by
  intro w s c h
  obtain ⟨e, hw, rfl⟩ | ⟨hw, hc⟩ | ⟨hw, hc⟩ := faultOf_eq_some h
  · rw [perform_error hw, hw]
    rfl
  · rw [perform_ok hw, exec_cmpt_error hc, hw]
    rfl
  · rw [perform_ok hw, exec_cmpp_error hc, hw]
    rfl

theorem raiseFault_faultMask_getLsbD (c : FaultCode) (s : State) (b : Nat) :
    (raiseFault c s).faultMask.getLsbD b = (s.faultMask.getLsbD b || decide (b = c.code)) := by
  rw [raiseFault_faultMask, BitVec.getLsbD_or, c.maskBit_getLsbD]

theorem raiseFault_faultFirst_toNat (c : FaultCode) (s : State) :
    (raiseFault c s).faultFirst.toNat = if s.faultFirst = 0 then c.code else s.faultFirst.toNat := by
  rw [raiseFault_faultFirst, apply_ite BitVec.toNat, c.first_toNat]

theorem raiseFault_faultFirst_ne_zero (c : FaultCode) (s : State) : (raiseFault c s).faultFirst ≠ 0 := by
  rw [raiseFault_faultFirst]
  split
  next => exact c.first_ne_zero
  next hne => exact hne

/-- Settles O24: recording on each fault register, its frame, and that O25's state holds the registers so recorded. -/
theorem raisingAFaultRecordsIt : Obligations.RaisingAFaultRecordsIt := by
  intro c s
  have hcode : c.code ∈ [1, 2, 3, 4, 5, 6] := by cases c <;> decide
  exact ⟨hcode, raiseFault_faultMask_getLsbD c s, raiseFault_faultFirst_toNat c s, raiseFault_frame c s,
    fun w h => ⟨_, faultingCommandChangesOnly w s c h, rfl, rfl, rfl⟩⟩

/-! ### The fault registers over a run -/

theorem issue_faultRegisters_of_faultOf_some (h : faultOf w s = some c) :
    (issue w s).faultFirst = (raiseFault c s).faultFirst ∧ (issue w s).faultMask = (raiseFault c s).faultMask := by
  rw [issue, faultingCommandChangesOnly w s c h]
  exact ⟨rfl, rfl⟩

theorem issue_faultRegisters_of_faultOf_none (hw : decode w ≠ .ok .srst) (h : faultOf w s = none) :
    (issue w s).faultFirst = s.faultFirst ∧ (issue w s).faultMask = s.faultMask := by
  have heff := issue_effect w s
  generalize hd : decode w = d, issue w s = t at heff hw
  cases heff with
  | illegal e => simp [faultOf, hd] at h
  | cmptFault hc => cases (faultOf_cmpt hd hc).symm.trans h
  | cmppFault hc => cases (faultOf_cmpp hd hc).symm.trans h
  | srst => exact absurd rfl hw
  | _ => exact ⟨rfl, rfl⟩

/-- Settles O27, by induction on the words: the first word raises its fault or none, and the rest go on from there. -/
theorem faultsAccumulateOverARun : Obligations.FaultsAccumulateOverARun := by
  intro ws
  induction ws with
  | nil =>
    refine fun s _ => ⟨?_, fun b => (Bool.or_false _).symm⟩
    split
    next hzero => exact hzero
    next => rfl
  | cons w ws ih =>
    intro s hws
    obtain ⟨hw, hrest⟩ := List.forall_mem_cons.mp hws
    obtain ⟨ihfirst, ihmask⟩ := ih (issue w s) hrest
    rw [issueAll_cons, codesOf]
    cases hf : faultOf w s with
    | none =>
      obtain ⟨hfirst, hmask⟩ := issue_faultRegisters_of_faultOf_none hw hf
      rw [hfirst] at ihfirst
      rw [hmask] at ihmask
      exact ⟨ihfirst, ihmask⟩
    | some c =>
      obtain ⟨hfirst, hmask⟩ := issue_faultRegisters_of_faultOf_some hf
      refine ⟨?_, fun b => ?_⟩
      · rw [ihfirst, hfirst, if_neg (raiseFault_faultFirst_ne_zero c s)]
        rfl
      · rw [ihmask, hmask, raiseFault_faultMask_getLsbD, Bool.or_assoc, decide_eq_decide.mpr (eq_comm (a := b))]
        rfl

end Sys2Proof.Machine
end

section
/-! PROOFS. Where several causes apply to a CMPT or a CMPP, the lowest code is raised (60_exceptions.md R262). -/

namespace Sys2Proof.Machine

variable {cause : FaultCode → Prop} {c : FaultCode}

/-! ### Going up the codes -/

/-- Every cause that applies has a code of at least `n`. -/
def NoCauseBelow (cause : FaultCode → Prop) (n : Nat) : Prop := ∀ e, cause e → n ≤ e.code

theorem FaultCode.code_injective : Function.Injective FaultCode.code := by
  intro c e
  cases c <;> cases e <;> decide

theorem noCauseBelow_one (cause : FaultCode → Prop) : NoCauseBelow cause 1 := fun e _ => e.code_pos

/-- A cause that does not apply leaves none below the next code. -/
theorem NoCauseBelow.succ (h : NoCauseBelow cause c.code) (hc : ¬ cause c) : NoCauseBelow cause (c.code + 1) := by
  intro e he
  have hne : c.code ≠ e.code := fun heq => hc (FaultCode.code_injective heq ▸ he)
  exact lt_of_le_of_ne (h e he) hne

/-- There is no code above 6. -/
theorem NoCauseBelow.not_cause (h : NoCauseBelow cause 7) (e : FaultCode) : ¬ cause e := fun he =>
  e.code_lt.not_ge (h e he)

/-! ### The checks come in the order of their codes (42_compensation.md R158) -/

theorem cmptOutcome_cases (s : State) :
    (∃ c, s.cmptOutcome = .error c ∧ cmptCause s c ∧ NoCauseBelow (cmptCause s) c.code) ∨
    (∃ t10, s.cmptOutcome = .ok t10 ∧ ∀ c, ¬ cmptCause s c) := by
  have h2 := (noCauseBelow_one (cmptCause s)).succ (c := .illegalCommand) id
  by_cases hcal : s.loaded ≠ 0x7FF
  · exact .inl ⟨.calNotLoaded, if_pos (calValid_eq_false hcal), hcal, h2⟩
  have h3 := h2.succ (c := .calNotLoaded) hcal
  rw [not_not] at hcal
  by_cases hut : s.utValid = false
  · exact .inl ⟨.utNotLoaded, cmptOutcome_of_not_utValid hcal hut, hut, h3⟩
  have h5 := (h3.succ (c := .utNotLoaded) hut).succ (c := .upNotLoaded) id
  rw [Bool.not_eq_false] at hut
  have hout : s.cmptOutcome = s.tempResult := cmptOutcome_of_valid hcal hut
  by_cases hden : stageDen (coeffs s.cal) (zext s.ut) = 0
  · exact .inl ⟨.divZeroTemp, hout.trans (tempOf_of_den_eq_zero hden), hden, h5⟩
  have h7 := (h5.succ (c := .divZeroTemp) hden).succ (c := .divZeroPres) id
  exact .inr ⟨_, hout.trans (tempOf_of_den_ne_zero hden), h7.not_cause⟩

theorem cmppOutcome_cases (s : State) :
    (∃ c, s.cmppOutcome = .error c ∧ cmppCause s c ∧ NoCauseBelow (cmppCause s) c.code) ∨
    (∃ p, s.cmppOutcome = .ok p ∧ ∀ c, ¬ cmppCause s c) := by
  have h2 := (noCauseBelow_one (cmppCause s)).succ (c := .illegalCommand) id
  by_cases hcal : s.loaded ≠ 0x7FF
  · exact .inl ⟨.calNotLoaded, if_pos (calValid_eq_false hcal), hcal, h2⟩
  have h3 := h2.succ (c := .calNotLoaded) hcal
  rw [not_not] at hcal
  by_cases hut : s.utValid = false
  · exact .inl ⟨.utNotLoaded, cmppOutcome_of_not_utValid hcal hut, hut, h3⟩
  have h4 := h3.succ (c := .utNotLoaded) hut
  rw [Bool.not_eq_false] at hut
  by_cases hup : s.upValid = false
  · exact .inl ⟨.upNotLoaded, cmppOutcome_of_not_upValid hcal hut hup, hup, h4⟩
  have h5 := h4.succ (c := .upNotLoaded) hup
  rw [Bool.not_eq_false] at hup
  have hout : s.cmppOutcome = s.presResult := cmppOutcome_of_valid hcal hut hup
  by_cases hden : stageDen (coeffs s.cal) (zext s.ut) = 0
  · exact .inl ⟨.divZeroTemp, hout.trans (presOf_of_den_eq_zero hden _ _), hden, h5⟩
  have h6 := h5.succ (c := .divZeroTemp) hden
  have hpres := hout.trans (presOf_of_den_ne_zero hden _ _)
  have hb5 := stageB5_of_den_ne_zero hden
  by_cases hb4 :
      stageB4 (coeffs s.cal) (stageB6 (stageX1 (coeffs s.cal) (zext s.ut) + stageX2 (coeffs s.cal) (zext s.ut))) = 0
  · exact .inl ⟨.divZeroPres, hpres.trans (presFromB5_of_b4_eq_zero hb4 _ _), ⟨_, hb5, hb4⟩, h6⟩
  · have hcause : ¬ cmppCause s .divZeroPres := by
      rintro ⟨b5, hb5', hzero⟩
      cases hb5.symm.trans hb5'
      exact hb4 hzero
    exact .inr ⟨_, hpres.trans (presFromB5_of_b4_ne_zero hb4 _ _), (h6.succ hcause).not_cause⟩

/-- Settles O26: the outcome's error is the lowest cause that applies, and an outcome without error has none. -/
theorem lowestCauseIsRaised : Obligations.LowestCauseIsRaised := by
  intro s
  refine ⟨fun c hc => ?_, fun c hc => ?_, fun hnone => ?_, fun hnone => ?_⟩
  · obtain ⟨c0, hout, hcause, hlowest⟩ | ⟨_, -, hnone⟩ := cmptOutcome_cases s
    · exact ⟨c0, hcause, hlowest, exec_cmpt_error hout⟩
    · exact absurd hc (hnone c)
  · obtain ⟨c0, hout, hcause, hlowest⟩ | ⟨_, -, hnone⟩ := cmppOutcome_cases s
    · exact ⟨c0, hcause, hlowest, exec_cmpp_error hout⟩
    · exact absurd hc (hnone c)
  · obtain ⟨c0, -, hcause, -⟩ | ⟨_, hout, -⟩ := cmptOutcome_cases s
    · exact absurd hcause (hnone c0)
    · exact ⟨_, exec_cmpt_ok hout, rfl, rfl⟩
  · obtain ⟨c0, -, hcause, -⟩ | ⟨_, hout, -⟩ := cmppOutcome_cases s
    · exact absurd hcause (hnone c0)
    · exact ⟨_, exec_cmpp_ok hout, rfl, rfl⟩

end Sys2Proof.Machine
end

section
/-! PROOFS. Before the calibration is complete no result becomes valid (70_reset_and_hazards.md R302). -/

namespace Sys2Proof.Machine

variable {s t : State} {d : Except Illegal Instr} {k : Fin 11} {w : Word}

/-! ### What CAL_VALID = 0 keeps -/

/-- Only a CMPT that succeeds sets T_VALID, and it needs CAL_VALID. -/
theorem Effect.tValid_stays_false (h : Effect s d t) (hcal : s.calValid = false) (hs : s.tValid = false) :
    t.tValid = false := by
  cases h with
  | cmptFault => rfl
  | cmptDone hout => exact absurd (cmptOutcome_ok hout).1 (Bool.eq_false_iff.mp hcal)
  | srst => rfl
  | _ => exact hs

/-- Only a CMPP that succeeds sets P_VALID, and it needs CAL_VALID. -/
theorem Effect.pValid_stays_false (h : Effect s d t) (hcal : s.calValid = false) (hs : s.pValid = false) :
    t.pValid = false := by
  cases h with
  | cmppFault => rfl
  | cmppDone hout => exact absurd (cmppOutcome_ok hout).1 (Bool.eq_false_iff.mp hcal)
  | srst => rfl
  | _ => exact hs

/-! ### The invariant of a run without CALW k -/

/-- Coefficient k has not been written, and no result is valid. -/
structure State.Uncalibrated (k : Fin 11) (s : State) : Prop where
  loaded : s.loaded.getLsbD k.val = false
  tValid : s.tValid = false
  pValid : s.pValid = false

theorem State.Uncalibrated.calValid (h : s.Uncalibrated k) : s.calValid = false := calValid_false_of_bit h.loaded

theorem State.reset_uncalibrated (k : Fin 11) : State.reset.Uncalibrated k := ⟨BitVec.getLsbD_zero, rfl, rfl⟩

theorem State.Uncalibrated.issue (h : s.Uncalibrated k) (hw : ¬ IsCalw (BitVec.ofNat 4 k.val) w) :
    (issue w s).Uncalibrated k where
  loaded := issue_loaded_bit_false hw h.loaded
  tValid := (issue_effect w s).tValid_stays_false h.calValid h.tValid
  pValid := (issue_effect w s).pValid_stays_false h.calValid h.pValid

/-- Settles O33: reset has no coefficient and no valid result, every word but CALW k keeps it so, and CMPT and CMPP fault
where a coefficient is missing. -/
theorem noResultBeforeCalibration : Obligations.NoResultBeforeCalibration := by
  intro ws k hws
  have hrun : (issueAll ws State.reset).Uncalibrated k :=
    issueAll_induct (·.Uncalibrated k) ws (fun w hw _ h => h.issue (hws w hw)) (State.reset_uncalibrated k)
  exact ⟨hrun.tValid, hrun.pValid, exec_of_not_calValid hrun.calValid⟩

end Sys2Proof.Machine
end

section
/-! PROOFS. The source's reference vector, stage by stage (95_test_vectors.md V-A1). -/

namespace Sys2Proof.Machine

/-- The coefficients as the source prints them (95_test_vectors.md V-A1). -/
def referenceCoeffs : Coeffs :=
  { ac1 := 408, ac2 := -72, ac3 := -14383, ac4 := 32741, ac5 := 32757, ac6 := 23153, b1 := 6190, b2 := 4,
    mb := -32768, mc := -8711, md := 2868 }

/-- The eleven patterns of the V-A1 table are the source's numbers. -/
theorem coeffs_reference_patterns :
    coeffs #v[0x0198, 0xFFB8, 0xC7D1, 0x7FE5, 0x7FF5, 0x5A71, 0x182E, 0x0004, 0x8000, 0xDDF9, 0x0B34] =
      referenceCoeffs := by
  decide

/-! ### The temperature stages at UT = 27898 -/

theorem stageX1_reference : stageX1 referenceCoeffs 27898 = 4743 := by decide

theorem stageDen_reference : stageDen referenceCoeffs 27898 = 7611 := by
  rw [stageDen, stageX1_reference]
  rfl

/-- The division truncates: its floor is -2344. -/
theorem stageX2_reference : stageX2 referenceCoeffs 27898 = -2343 := by
  rw [stageX2, stageDen_reference]
  decide

theorem stageDen_reference_ne_zero : stageDen referenceCoeffs 27898 ≠ 0 := by
  rw [stageDen_reference]
  decide

theorem tempOf_reference : tempOf referenceCoeffs 27898 = .ok 150 := by
  rw [tempOf_of_den_ne_zero stageDen_reference_ne_zero, stageX1_reference, stageX2_reference]
  rfl

/-! ### The pressure stages at b5 = 2400, UP = 23843 and oss 0 -/

theorem stageB6_reference : stageB6 2400 = -1600 := rfl

theorem stageB3_reference : stageB3 referenceCoeffs (-1600) 0 = 422 := by decide

theorem stageB4_reference : stageB4 referenceCoeffs (-1600) = 33457 := by decide

theorem stageB7_reference : stageB7 23843 422 0 = 1171050000 := by decide

/-- b7 is below 2^31, so it is doubled before the division. -/
theorem stagePq_reference : stagePq 1171050000 33457 = 70003 := by decide

theorem stageP_reference : stageP 70003 = 69964 := by decide

theorem presFromB5_reference : presFromB5 referenceCoeffs 2400 23843 0 = .ok 69964 := by
  have hb4 : stageB4 referenceCoeffs (stageB6 2400) ≠ 0 := by
    rw [stageB6_reference, stageB4_reference]
    decide
  have hp : s64 70003 = 70003 := rfl
  rw [presFromB5_of_b4_ne_zero hb4, stageB6_reference, stageB3_reference, stageB4_reference, stageB7_reference,
    stagePq_reference, hp, stageP_reference]

theorem presOf_reference : presOf referenceCoeffs 27898 23843 0 = .ok 69964 := by
  rw [presOf_of_den_ne_zero stageDen_reference_ne_zero, stageX1_reference, stageX2_reference]
  exact presFromB5_reference

/-- Settles O45: the patterns are the source's numbers, the stages give 150 and 69964, and the double of 150 is a row of
V-H. -/
theorem sourceReferenceVector : Obligations.SourceReferenceVector := by
  obtain ⟨htemp, -⟩ := temperatureScaleVectors
  unfold Obligations.SourceReferenceVector
  intro cal
  have hcal : coeffs cal = referenceCoeffs := coeffs_reference_patterns
  rw [hcal, htemp]
  exact ⟨tempOf_reference, presOf_reference, Reading.same_self _⟩

end Sys2Proof.Machine
end
